-- ==== Sys2Proof/Word.lean ====
section
/-! DEFINITION. The words the block moves: spec/30_encoding.md rule R47 and spec/00_scope.md rule R10. -/

namespace Sys2Proof

/-- A byte of the host channel, bit 7 its most significant bit (R10). -/
abbrev Byte := BitVec 8

/-- A 32-bit command word (R48): the width of `CMD`, `MBX` and `upd_data`. -/
abbrev Word := BitVec 32

/-- A transmission statistic, `ONES` or `ZEROS` (R17). -/
abbrev Count := BitVec 6

/-- The tick countdown `REM` and the elapsed time `ELAPSED` (R21, R22). -/
abbrev Ticks := BitVec 17

/-- A number of carrier cycles, as `CYC` counts them (R20). -/
abbrev Cycles := BitVec 7

/-- The index of a data bit in transmission order (R18). -/
abbrev BitIndex := BitVec 5

/-- The raw code that `PHASE` holds (R19). -/
abbrev PhaseCode := BitVec 3

end Sys2Proof
end

