-- ==== Sys2Proof/Config.lean ====
section
/-! DEFINITION. What this hardware fixes: the protocol constants of spec/00_scope.md rule R6, immutable at
runtime (R26), and the free values of the model (notes/assumptions/1.md, 2.md). -/

namespace Sys2Proof.Config

/-- `HALF_PERIOD`: ticks of one carrier half-cycle. -/
def halfPeriod : Nat := 13

/-- `CYCLE_PERIOD`: ticks of one carrier cycle (R6, R7). -/
def cyclePeriod : Nat := 26

/-- `HDR_CYCLES`: carrier cycles of the header burst. -/
def hdrCycles : Nat := 77

/-- `HDR_SPACE`: ticks low after the header burst. -/
def hdrSpace : Nat := 1998

/-- `BIT_CYCLES`: carrier cycles of every bit-start burst. -/
def bitCycles : Nat := 12

/-- `ONE_SPACE`: ticks low after a 1-bit's burst. -/
def oneSpace : Nat := 688

/-- `ZERO_SPACE`: ticks low after a 0-bit's burst. -/
def zeroSpace : Nat := 288

/-- `FTR_CYCLES`: carrier cycles of the footer burst. -/
def ftrCycles : Nat := 12

/-- `BITS_PER_BYTE`: bits sent per command byte. -/
def bitsPerByte : Nat := 8

/-- `BYTES_PER_PACKET`: command bytes per packet. -/
def bytesPerPacket : Nat := 4

/-- `PACKETS_PER_SECOND`: the packet rate. -/
def packetsPerSecond : Nat := 10

/-- `TARGET_PERIOD`: ticks of one packet cycle, `1000000 / PACKETS_PER_SECOND` (R80). -/
def targetPeriod : Nat := 1000000 / packetsPerSecond

/-- `READY_BYTE`: the handshake sentinel, device to host (R53). -/
def readyByte : Byte := 0x81#8

/-- The command at startup: yaw 63, pitch 63, throttle 0, trim 63 (R6, R15). -/
def defaultCommand : Word := 0x3F3F003F#32

/-- FREE VALUE (DESIGN CHOICE, notes/assumptions/1.md): what `REM` holds after a tick that counts it down from 0, a
state the hardware is never in (R33) and for which the spec states no result. The argument is the state's draw counter. -/
opaque freeRem : Nat → Ticks

/-- FREE VALUE (DESIGN CHOICE, notes/assumptions/2.md): what a statistic holds after a tally that finds it at 63, a
state the hardware is never in (R72) and for which the spec states no result. The argument is the state's draw counter. -/
opaque freeCount : Nat → Count

end Sys2Proof.Config
end

