-- ==== Sys2Proof/Syntax.lean ====
section
/-! DEFINITION. The block's "instructions": one constructor per row of spec/opcode_table.json, with the operands the row's
rule gives it. The block has no instruction stream (spec/00_scope.md rule R3): the rows are the sequencer's phase codes, the
labels of the IR symbols, the two host messages, the mailbox port and the source's operations. -/

namespace Sys2Proof

inductive Instr where
  /-- Phase `000` (R92): the boundary tick after reset. -/
  | start
  /-- Phase `001` (R97): a tick of the header burst. -/
  | hmark
  /-- Phase `010` (R98): a tick of the header space. -/
  | hspace
  /-- Phase `011` (R99): a tick of a bit-start burst. -/
  | bmark
  /-- Phase `100` (R100): a tick of a bit's space, and the tally at its end. -/
  | bspace
  /-- Phase `101` (R101): a tick of the footer burst, and the pacer at its end. -/
  | fmark
  /-- Phase `110` (R102): a tick of the residual wait, or the boundary tick that follows it (R92). -/
  | pace
  /-- Phase `111` (R103): the reserved code. -/
  | reserved111
  /-- IR symbol HDR, label `10` (R54, R69). -/
  | hdr
  /-- IR symbol ONE, label `01` (R54, R66). -/
  | one
  /-- IR symbol ZERO, label `00` (R54, R66). -/
  | zero
  /-- IR symbol FTR, label `11` (R54, R71). -/
  | ftr
  /-- Host update message (R52, R110): the fields of the command word (R48). -/
  | upd (yaw pitch : Byte) (channel : Bool) (throttle : BitVec 7) (trim : Byte)
  /-- Host ready message (R53, R112). -/
  | rdy
  /-- `EMIT_PULSES n` (R63): a burst of `n` carrier cycles. -/
  | emitPulses (n : Cycles)
  /-- `ENCODE_BIT b` (R66): one data symbol. -/
  | encodeBit (b : Bool)
  /-- `TRANSMIT cmd` (R68): one packet. -/
  | transmit (cmd : Word)
  /-- `RESIDUAL_DELAY o z` (R81): the residual after `o` 1-bits and `z` 0-bits. -/
  | residualDelay (ones zeros : Count)
  /-- `PACE_WAIT w` (R84): a wait of `w` ticks. -/
  | paceWait (w : Ticks)
  /-- `POLL_UPDATE` (R93): the commit from the mailbox to `CMD`. -/
  | pollUpdate
  /-- `SIGNAL_READY` (R94): the ready strobe. -/
  | signalReady
  /-- `MAILBOX_WRITE` (R95): the port write of `upd_data` while `upd_valid = 1`. -/
  | mailboxWrite (data : Word)
  deriving DecidableEq, Repr

/-- The formats of spec/opcode_table.json's rows (R47, R59). -/
inductive Format where
  | phase | irSymbol | hostUpdate | hostReady | port
  /-- A source operation: it runs in the phases its row lists and has no bit pattern of its own. -/
  | operation
  deriving DecidableEq, Repr

/-- The format of an instruction's row. -/
def Instr.format : Instr → Format
  | .start => .phase
  | .hmark => .phase
  | .hspace => .phase
  | .bmark => .phase
  | .bspace => .phase
  | .fmark => .phase
  | .pace => .phase
  | .reserved111 => .phase
  | .hdr => .irSymbol
  | .one => .irSymbol
  | .zero => .irSymbol
  | .ftr => .irSymbol
  | .upd _ _ _ _ _ => .hostUpdate
  | .rdy => .hostReady
  | .emitPulses _ => .operation
  | .encodeBit _ => .operation
  | .transmit _ => .operation
  | .residualDelay _ _ => .operation
  | .paceWait _ => .operation
  | .pollUpdate => .operation
  | .signalReady => .operation
  | .mailboxWrite _ => .port

end Sys2Proof
end

