-- ==== Sys2Proof/Decode.lean ====
section
/-! DEFINITION. The encodings of spec/30_encoding.md: the decoder of each format, the encoder, and the reading of
spec/opcode_table.json's bit numbering. A code is tagged with its format, since the formats are separate code spaces that
share bit values (R59: a 3-bit phase space, a 2-bit label space, 32-bit updates, one ready byte, the mailbox port). -/

namespace Sys2Proof

/-- A code as the block or its environment meets it, one constructor per format of R47 that has bits. -/
inductive Code where
  /-- A value of `PHASE` (R58). -/
  | phase (bits : PhaseCode)
  /-- The 2-bit label of an IR symbol (R54). -/
  | symbol (label : BitVec 2)
  /-- A 4-byte host update in arrival order (R52). -/
  | update (b0 b1 b2 b3 : Byte)
  /-- A device-to-host byte (R53). -/
  | ready (byte : Byte)
  /-- The mailbox port: `upd_valid` and `upd_data` (R14, R95). -/
  | port (valid : BitVec 1) (data : Word)
  deriving DecidableEq, Repr

/-- The format a code belongs to. -/
def Code.format : Code → Format
  | .phase _ => .phase
  | .symbol _ => .irSymbol
  | .update _ _ _ _ => .hostUpdate
  | .ready _ => .hostReady
  | .port _ _ => .port

/-- Why a code stands for no instruction. -/
inductive DecodeError where
  /-- A device-to-host byte other than 129: none is defined (R60). -/
  | notSentinel (byte : Byte)
  /-- `upd_valid = 0`: the port selects no write (R95). -/
  | noWriteSelected
  /-- Fewer than 4 host bytes: "insufficient data, wait" (R111). -/
  | insufficientData
  deriving DecidableEq, Repr

/-- The phase decoder: all three bits, every code selected (R58). -/
def decodePhase (p : PhaseCode) : Instr :=
  match p.toNat with
  | 0 => .start
  | 1 => .hmark
  | 2 => .hspace
  | 3 => .bmark
  | 4 => .bspace
  | 5 => .fmark
  | 6 => .pace
  | _ => .reserved111

/-- The symbol labels, all four used (R54). -/
def decodeSymbol (l : BitVec 2) : Instr :=
  match l.toNat with
  | 0 => .zero
  | 1 => .one
  | 2 => .hdr
  | _ => .ftr

/-- `b0 ‖ b1 ‖ b2 ‖ b3`: the command word of four bytes in arrival order (R48, R52, R110). -/
def packWord (b0 b1 b2 b3 : Byte) : Word := b0 ++ b1 ++ b2 ++ b3

/-- The throttle byte `C ‖ T` (R48). -/
def throttleByte (channel : Bool) (throttle : BitVec 7) : Byte := BitVec.ofBool channel ++ throttle

/-- The command word of the fields (R48): `Y ‖ P ‖ (C ‖ T) ‖ R`. -/
def fieldsWord (yaw pitch : Byte) (channel : Bool) (throttle : BitVec 7) (trim : Byte) : Word :=
  packWord yaw pitch (throttleByte channel throttle) trim

/-- The host update of four bytes in arrival order: yaw, pitch, throttle byte, trim (R52), with the throttle byte's
MSB the channel flag (R49). Every value of every byte is legal (R50). -/
def decodeUpdate (b0 b1 b2 b3 : Byte) : Instr :=
  .upd b0 b1 b2.msb (b2.setWidth 7) b3

/-- The decoder: total on every code, rejecting by name. -/
def decode : Code → Except DecodeError Instr
  | .phase p => .ok (decodePhase p)
  | .symbol l => .ok (decodeSymbol l)
  | .update b0 b1 b2 b3 => .ok (decodeUpdate b0 b1 b2 b3)
  | .ready b => if b = Config.readyByte then .ok .rdy else .error (.notSentinel b)
  | .port v d => if v = 1#1 then .ok (.mailboxWrite d) else .error .noWriteSelected

/-- The host byte stream, read from its front (R109, R111): the first four bytes are an update and the rest remains. -/
def decodeHostBytes : List Byte → Except DecodeError (Instr × List Byte)
  | b0 :: b1 :: b2 :: b3 :: rest => .ok (decodeUpdate b0 b1 b2 b3, rest)
  | _ => .error .insufficientData

/-- The encoder. A source operation has no bit pattern of its own (spec/opcode_table.json), so it has no code. -/
def encode : Instr → Option Code
  | .start => some (.phase 0b000#3)
  | .hmark => some (.phase 0b001#3)
  | .hspace => some (.phase 0b010#3)
  | .bmark => some (.phase 0b011#3)
  | .bspace => some (.phase 0b100#3)
  | .fmark => some (.phase 0b101#3)
  | .pace => some (.phase 0b110#3)
  | .reserved111 => some (.phase 0b111#3)
  | .hdr => some (.symbol 0b10#2)
  | .one => some (.symbol 0b01#2)
  | .zero => some (.symbol 0b00#2)
  | .ftr => some (.symbol 0b11#2)
  | .upd y p c t r => some (.update y p (throttleByte c t) r)
  | .rdy => some (.ready Config.readyByte)
  | .emitPulses _ => none
  | .encodeBit _ => none
  | .transmit _ => none
  | .residualDelay _ _ => none
  | .paceWait _ => none
  | .pollUpdate => none
  | .signalReady => none
  | .mailboxWrite d => some (.port 1#1 d)

/-- The code that `nbits` bits numbered as spec/opcode_table.json numbers them stand for. With a row's own width the
format is certain: 1 the port, 2 a symbol label, 3 a phase, 8 the ready byte, 32 the update, yaw in bits 31:24 (R48).
A phase code, a label or a port bit padded to a whole byte is ambiguous in the table itself (R59); such a byte below 8 is
read as the phase code, the only one of the three that a register of the block holds (notes/assumptions/3.md). -/
def tableCode (nbits w : Nat) : Option Code :=
  match nbits with
  | 1 => if w < 2 then some (.port (BitVec.ofNat 1 w) 0) else none
  | 2 => if w < 4 then some (.symbol (BitVec.ofNat 2 w)) else none
  | 3 => if w < 8 then some (.phase (BitVec.ofNat 3 w)) else none
  | 8 =>
    if w < 8 then some (.phase (BitVec.ofNat 3 w))
    else if w < 256 then some (.ready (BitVec.ofNat 8 w)) else none
  | 32 =>
    if w < 4294967296 then
      some (.update (BitVec.ofNat 8 (w / 16777216)) (BitVec.ofNat 8 (w / 65536)) (BitVec.ofNat 8 (w / 256))
        (BitVec.ofNat 8 w))
    else none
  | _ => none

/-- The instruction the decoder reads from a code, none where it refuses. -/
def decodeCode (c : Code) : Option Instr :=
  match decode c with
  | .ok i => some i
  | .error _ => none

/-- The instruction the decoder reads from a row's bits. -/
def decodeTableWord (nbits w : Nat) : Option Instr :=
  match tableCode nbits w with
  | some c => decodeCode c
  | none => none

end Sys2Proof
end

