-- ==== Sys2Proof/Machine/State.lean ====
section
/-! DEFINITION. The state of the block and of the transport adapter beside it: spec/10_state.md rules R14 to R25 and R32,
spec/45_host_interface.md rules R109 to R112; why a step can stop; and the state after reset (R131). -/

namespace Sys2Proof.Machine

/-- A run of equal levels on `ir_out` (R74): the level, and for how many ticks it is held. -/
structure Segment where
  level : Bool
  ticks : Nat
  deriving DecidableEq, Repr

/-- The partial group the transport adapter holds: the count `g` and the bytes `h[0..g-1]` of R109. -/
inductive Held where
  | zero
  | one (h0 : Byte)
  | two (h0 h1 : Byte)
  | three (h0 h1 h2 : Byte)
  deriving DecidableEq, Repr

/-- What the environment brings in one tick: at most one host byte (R110, R117). An update reaches the port only as the group
that the adapter completes with a fourth byte; no other delivery is a move of the environment (R117,
notes/assumptions/11.md). -/
inductive Arrival where
  /-- Nothing. -/
  | nothing
  /-- `BYTE b` (R62): the host's byte `b` completes its arrival at the adapter (R108). -/
  | byte (b : Byte)
  deriving DecidableEq, Repr

/-- The inputs of one tick (R14, R91): the level of `rst`, and what arrives. -/
structure TickInput where
  rst     : Bool
  arrival : Arrival
  deriving DecidableEq, Repr

/-- The state. The registers of R32; the output ports of R14 as they were driven in the tick that has just been run; the
transport adapter of R109 to R112; the environment's future inputs; and two fields of the model's own, the record of
`ir_out` and the draw counter of the free values. -/
structure State where
  /-- `CMD[31:0]`, the active command (R15). -/
  cmd      : Word
  /-- `MBX[31:0]`, the mailbox (R16). -/
  mbx      : Word
  /-- `MBX_V`: the mailbox holds an update (R16). -/
  mbxV     : Bool
  /-- `ONES[5:0]`: 1-bits of the packet whose space has ended (R17). -/
  ones     : Count
  /-- `ZEROS[5:0]`: 0-bits of the packet whose space has ended (R17). -/
  zeros    : Count
  /-- `BITIDX[4:0]`: the index of the data bit being sent (R18). -/
  bitidx   : BitIndex
  /-- `PHASE[2:0]` (R19): the raw code, so that the reserved one can be held. -/
  phase    : PhaseCode
  /-- `CYC[6:0]`: carrier cycles completed in the burst (R20). -/
  cyc      : Cycles
  /-- `HALF`: false is 0, the high half-cycle; true is 1, the low one (R20). -/
  half     : Bool
  /-- `REM[16:0]`: ticks left in the half-cycle, space or wait (R21). -/
  rem      : Ticks
  /-- `ELAPSED[16:0]`: the framer's return value (R22). -/
  elapsed  : Ticks
  /-- `RESID[31:0]`: the pacer's residual, two's complement (R23). -/
  resid    : BitVec 32
  /-- `OVR_CNT[15:0]`: the timing-overrun counter (R24). -/
  ovrCnt   : BitVec 16
  /-- Output `ir_out` in the tick just run: true is 1 (R25, R96). -/
  irOut    : Bool
  /-- Output `ready` in the tick just run (R25, R94). -/
  ready    : Bool
  /-- Output `ovr_count` in the tick just run (R14, R24). -/
  ovrCount : BitVec 16
  /-- Inputs `upd_valid` and `upd_data` as they stood in the tick just run (R14, R110): none is `upd_valid = 0`. -/
  updPort  : Option Word
  /-- The adapter's partial group (R109). -/
  held     : Held
  /-- The byte the adapter sent to the host in the tick just run (R112). -/
  hostTx   : Option Byte
  /-- The inputs of the ticks to come, the next tick's first; past the end of the list nothing arrives and `rst = 0`. -/
  inputs   : List TickInput
  /-- The model's own record of `ir_out` since reset (R54, R74), newest run first and neighbouring runs of different level. -/
  wave     : List Segment
  /-- The model's own draw counter: how many free values have been drawn (notes/assumptions/1.md, 2.md). -/
  draws    : Nat
  deriving DecidableEq, Repr

/-- Why the machine stops. -/
inductive Fault where
  /-- `fault(ReservedPhase)`: raised by the meaning of phase code `111` (R103, decision D24). SAFE: the block never
  holds the code, and the spec has the model fault. -/
  | reservedPhase
  deriving DecidableEq, Repr

/-- Why an instruction has no meaning. -/
inductive Refusal where
  /-- Raised by an arm of exec whose instruction has no meaning yet. SAFE. -/
  | notModelled (mnemonic : String)
  /-- Raised by `EMIT_PULSES 0` (R63, decision D27: a model that takes the counts as arguments keeps every count at
  least 1 or refuses). SAFE: no phase runs a burst of 0 cycles. -/
  | zeroCycleCount
  deriving DecidableEq, Repr

/-- The machine right after a reset tick (R32, R131): `CMD` the default command, every other register 0, the outputs 0,
the adapter empty. `MBX`'s value is the model's (DESIGN CHOICE, notes/assumptions/4.md), the spec giving none. -/
def State.reset : State where
  cmd      := Config.defaultCommand
  mbx      := 0#32
  mbxV     := false
  ones     := 0#6
  zeros    := 0#6
  bitidx   := 0#5
  phase    := 0b000#3
  cyc      := 0#7
  half     := false
  rem      := 0#17
  elapsed  := 0#17
  resid    := 0#32
  ovrCnt   := 0#16
  irOut    := false
  ready    := false
  ovrCount := 0#16
  updPort  := none
  held     := .zero
  hostTx   := none
  inputs   := []
  wave     := []
  draws    := 0

end Sys2Proof.Machine
end

