-- ==== Sys2Proof/Machine/Operands.lean ====
section
/-! DEFINITION. The operands the rules read: the phase codes by name, the fields and data bits of a command word
(spec/30_encoding.md rules R48 to R51), the marks and spaces of the symbols (R54), and the pacer's pure functions of the
statistics (spec/43_rate_pacer.md rules R78 to R85). -/

namespace Sys2Proof.Machine

/-- Phase code START (R58). -/
abbrev phaseStart : PhaseCode := 0b000#3
/-- Phase code HMARK (R58). -/
abbrev phaseHmark : PhaseCode := 0b001#3
/-- Phase code HSPACE (R58). -/
abbrev phaseHspace : PhaseCode := 0b010#3
/-- Phase code BMARK (R58). -/
abbrev phaseBmark : PhaseCode := 0b011#3
/-- Phase code BSPACE (R58). -/
abbrev phaseBspace : PhaseCode := 0b100#3
/-- Phase code FMARK (R58). -/
abbrev phaseFmark : PhaseCode := 0b101#3
/-- Phase code PACE (R58). -/
abbrev phasePace : PhaseCode := 0b110#3
/-- The reserved phase code (R58, R103). -/
abbrev phaseReserved : PhaseCode := 0b111#3

/-- Yaw, bits 31:24 of a command word (R48). -/
def yawOf (cmd : Word) : Byte := cmd.extractLsb' 24 8
/-- Pitch, bits 23:16 (R48). -/
def pitchOf (cmd : Word) : Byte := cmd.extractLsb' 16 8
/-- The throttle byte `C ‖ T`, bits 15:8 (R48). -/
def throttleByteOf (cmd : Word) : Byte := cmd.extractLsb' 8 8
/-- The channel flag `C`, bit 15, to which the block gives no meaning (R49). -/
def channelOf (cmd : Word) : Bool := cmd.getLsbD 15
/-- Throttle, bits 14:8 (R48). -/
def throttleOf (cmd : Word) : BitVec 7 := cmd.extractLsb' 8 7
/-- Trim, bits 7:0 (R48). -/
def trimOf (cmd : Word) : Byte := cmd.extractLsb' 0 8

/-- The data bit with index `i` in transmission order: `CMD[31 - i]` (R51, R70). -/
def dataBit (cmd : Word) (i : BitIndex) : Bool := cmd.getLsbD (31 - i.toNat)

/-- The indexes of the 32 data bits in transmission order (R18, R55). -/
def bitIndexes : List BitIndex := (List.range 32).map (BitVec.ofNat 5)

/-- How many of the data bits with the given indexes are 1. -/
def onesAmong (cmd : Word) (is : List BitIndex) : Nat := is.countP (dataBit cmd)

/-- `popcount` (R11). -/
def popcount (cmd : Word) : Nat := onesAmong cmd bitIndexes

/-- The ticks of the space that follows a data bit's burst (R54, R66). -/
def symbolSpace (b : Bool) : Nat := if b then Config.oneSpace else Config.zeroSpace

/-- `TotalTime(o, z)`, term by term as R78 writes it. -/
def totalTime (o z : Count) : Nat :=
  (Config.hdrCycles * Config.cyclePeriod + Config.hdrSpace)
    + Config.ftrCycles * Config.cyclePeriod
    + Config.bitCycles * Config.cyclePeriod * Config.bitsPerByte * Config.bytesPerPacket
    + Config.oneSpace * o.toNat
    + Config.zeroSpace * z.toNat

/-- `residual = TARGET_PERIOD - TotalTime(o, z)` over the integers (R81, R85), for a target period as argument. -/
def residualOf (target : Nat) (o z : Count) : Int := (target : Int) - (totalTime o z : Int)

/-- The wait taken: `max(0, residual)` (R82). -/
def clampedWait (r : Int) : Nat := (max 0 r).toNat

end Sys2Proof.Machine
end

