-- ==== Sys2Proof/Machine/Flags.lean ====
section
/-! DEFINITION. The block has no flags register (spec/10_state.md rule R29). What stands in its place: the overrun
condition and its saturating count (spec/43_rate_pacer.md rule R82), and the statistic a data bit adds to
(spec/44_sequencer.md rule R100). -/

namespace Sys2Proof.Machine

/-- A timing overrun: the residual is negative, and 0 is none (R82, decision D12). -/
def isOverrun (r : Int) : Bool := decide (r < 0)

/-- `min(OVR_CNT + 1, 0xFFFF)` (R82). -/
def overrunNext (c : BitVec 16) : BitVec 16 := if c = 0xFFFF#16 then 0xFFFF#16 else c + 1#16

/-- `OVR_CNT` after a packet whose residual is `r` (R82). -/
def overrunAfter (r : Int) (c : BitVec 16) : BitVec 16 := if isOverrun r then overrunNext c else c

/-- A statistic plus 1 (R100), with the draw counter: at 63, which no run reaches (R72), the sum leaves the register's
6 bits and the result is a free value (DESIGN CHOICE, notes/assumptions/2.md). -/
def countNext (c : Count) (draws : Nat) : Count × Nat :=
  if c = 63#6 then (Config.freeCount draws, draws + 1) else (c + 1#6, draws)

/-- The framer's tally of the bit `isOne` (R72, R100). -/
def tally (isOne : Bool) (s : State) : State :=
  if isOne then
    { s with ones := (countNext s.ones s.draws).1, draws := (countNext s.ones s.draws).2 }
  else
    { s with zeros := (countNext s.zeros s.draws).1, draws := (countNext s.zeros s.draws).2 }

end Sys2Proof.Machine
end

