-- ==== Sys2Proof/Machine/Ops.lean ====
section
/-! DEFINITION. The named operations the meanings share: the output primitive `emit` (spec/00_scope.md rule R11), the
countdown, the burst (spec/40_pulse_generator.md rule R63), the boundary operations (spec/44_sequencer.md rules R92 to R95),
the pacer's entry (spec/43_rate_pacer.md rule R83), the reset tick (spec/70_reset_and_hazards.md rule R131) and the transport
adapter (spec/45_host_interface.md). The block takes no exception and returns from none (spec/60_exceptions.md rules R118,
R122, R123), and it has no memory (spec/10_state.md rule R30): there is no operation for either. -/

namespace Sys2Proof.Machine

/-! ### The output -/

/-- The record of `ir_out` after `n` more ticks at a level: a run of the newest level grows, another level starts a run,
and `n = 0` adds nothing (R11). -/
def record (level : Bool) (n : Nat) (wave : List Segment) : List Segment :=
  if n = 0 then wave
  else match wave with
    | [] => [⟨level, n⟩]
    | g :: older => if g.level = level then ⟨level, g.ticks + n⟩ :: older else ⟨level, n⟩ :: g :: older

/-- `emit(level, n)` (R11): `ir_out` holds the level for `n` ticks; `emit(level, 0)` emits nothing. -/
def emit (level : Bool) (n : Nat) (s : State) : State :=
  if n = 0 then s else { s with irOut := level, wave := record level n s.wave }

/-! ### The countdown -/

/-- `REM <- REM - 1` (R91 step 4). From 0, which no run reaches there (R33), the result is a free value (DESIGN CHOICE,
notes/assumptions/1.md). -/
def decRem (s : State) : State :=
  if s.rem = 0#17 then { s with rem := Config.freeRem s.draws, draws := s.draws + 1 }
  else { s with rem := s.rem - 1#17 }

/-- Steps (3) and (4) of a tick (R91): the output for this tick, one tick passes, and the phase's end if `REM` is 0. -/
def countTick (level : Bool) (phaseEnd : State → State) (s : State) : State :=
  let t := decRem (emit level 1 s)
  if t.rem = 0#17 then phaseEnd t else t

/-! ### The burst -/

/-- Burst entry (R63): `CYC <- 0; HALF <- 0; REM <- 13`. -/
def burstEntry (s : State) : State :=
  { s with cyc := 0#7, half := false, rem := BitVec.ofNat 17 Config.halfPeriod }

/-- `BurstStep(N)` (R63), with what the phase does when it returns DONE. -/
def burstStep (n : Nat) (done : State → State) (s : State) : State :=
  if s.half then
    let t := { s with cyc := s.cyc + 1#7 }
    if t.cyc.toNat < n then { t with half := false, rem := BitVec.ofNat 17 Config.halfPeriod } else done t
  else { s with half := true, rem := BitVec.ofNat 17 Config.halfPeriod }

/-- A tick of a burst of `n` cycles: the output is 1 exactly in the high half-cycle (R96). -/
def burstTick (n : Nat) (done : State → State) (s : State) : State :=
  countTick (!s.half) (burstStep n done) s

/-- `n` carrier cycles on `ir_out` (R63 at waveform level). -/
def emitCycles : Nat → State → State
  | 0, s => s
  | n + 1, s => emitCycles n (emit false Config.halfPeriod (emit true Config.halfPeriod s))

/-- `EMIT_PULSES n` run to its end (R63): the waveform, and what stays in the burst registers on DONE. The outputs
`ready` and `ovr_count` are left as they stood (DESIGN CHOICE, notes/assumptions/7.md). -/
def emitPulses (n : Nat) (s : State) : State :=
  { emitCycles n s with cyc := BitVec.ofNat 7 n, half := true, rem := 0#17 }

/-- A low hold of `d` ticks run to its end (R54): `ir_out = 0`, and `REM` counted down to 0. The outputs `ready`
and `ovr_count` are left as they stood (DESIGN CHOICE, notes/assumptions/7.md). -/
def holdLow (d : Nat) (s : State) : State := { emit false d s with rem := 0#17 }

/-! ### The boundary -/

/-- The commit from the mailbox to `CMD`, all 32 bits at once (R93, R44). -/
def pollUpdate (s : State) : State := if s.mbxV then { s with cmd := s.mbx, mbxV := false } else s

/-- The ready strobe (R94). -/
def signalReady (s : State) : State := { s with ready := true }

/-- Clears the statistics at the start of a packet (R92 item 3). -/
def clearStatistics (s : State) : State := { s with ones := 0#6, zeros := 0#6, bitidx := 0#5 }

/-- The boundary actions after the ready strobe (R92 items 2 to 4): poll, clear, start the header burst. -/
def boundary (s : State) : State :=
  burstEntry { clearStatistics (pollUpdate s) with phase := phaseHmark }

/-- What a tick does before its boundary actions (R91): `ovr_count` shows `OVR_CNT`, and `ready` is 0. -/
def beginTick (s : State) : State := { s with ovrCount := s.ovrCnt, ready := false }

/-! ### The pacer -/

/-- `PaceEntry()` (R83) for a target period as argument. Where the wait or the residual leaves the range of `REM` or `RESID`,
which no statistics reach with this hardware's period, the register holds its low bits (DESIGN CHOICE,
notes/assumptions/13.md). -/
def paceEntryFor (target : Nat) (s : State) : State :=
  let r := residualOf target s.ones s.zeros
  { s with
    elapsed := BitVec.ofNat 17 (totalTime s.ones s.zeros)
    resid   := BitVec.ofInt 32 r
    ovrCnt  := overrunAfter r s.ovrCnt
    rem     := BitVec.ofNat 17 (clampedWait r)
    phase   := phasePace }

/-- `PaceEntry()` (R83). -/
def paceEntry (s : State) : State := paceEntryFor Config.targetPeriod s

/-! ### The mailbox and the transport adapter -/

/-- `MBX <- upd_data; MBX_V <- 1` (R95): the last write wins, and it never blocks (R42). -/
def mailboxWrite (data : Word) (s : State) : State := { s with mbx := data, mbxV := true }

/-- The delivery of a complete group (R110): `upd_valid = 1` with the word, which the block writes to its mailbox at the end
of the tick (R95). -/
def deliver (w : Word) (s : State) : State := mailboxWrite w { s with updPort := some w }

/-- A host byte reaches the adapter (R109): three are held, the fourth completes a group. -/
def takeByte (x : Byte) (s : State) : State :=
  match s.held with
  | .zero => { s with held := .one x }
  | .one h0 => { s with held := .two h0 x }
  | .two h0 h1 => { s with held := .three h0 h1 x }
  | .three h0 h1 h2 => deliver (packWord h0 h1 h2 x) { s with held := .zero }

/-- The ready message (R112): the adapter sends the sentinel byte to the host. -/
def sendReadyByte (s : State) : State := { s with hostTx := some Config.readyByte }

/-- What the environment brings, at the end of the tick (R91 step 5). -/
def arrive (a : Arrival) (s : State) : State :=
  match a with
  | .nothing => s
  | .byte b => takeByte b s

/-- The adapter's part of a tick: one sentinel byte if the tick raised `ready` (R112), then what arrives. -/
def adapterTick (a : Arrival) (s : State) : State :=
  arrive a (if s.ready then sendReadyByte s else s)

/-! ### The inputs and the reset tick -/

/-- The inputs of the next tick; past the end of the list, nothing (notes/assumptions/5.md). -/
def nextInput (s : State) : TickInput :=
  match s.inputs with
  | [] => ⟨false, .nothing⟩
  | i :: _ => i

/-- Takes the next tick's inputs; the adapter has delivered and sent nothing in that tick yet (R110, R112). -/
def openTick (s : State) : State := { s with inputs := s.inputs.tail, updPort := none, hostTx := none }

/-- A tick with `rst = 1` (R131): the reset state, the outputs 0, arrivals ignored and the adapter's partial group dropped
(R109). The coming inputs and the model's own record and draw counter go on. -/
def resetTick (s : State) : State :=
  { State.reset with
    inputs := s.inputs.tail
    wave := record false 1 s.wave
    draws := s.draws }

/-- The end of a tick whose phase has run: the adapter's part, or the stop the phase answered. -/
def endTick (a : Arrival) (o : Host.Outcome State Fault Refusal) : Host.Outcome State Fault Refusal :=
  match o with
  | .next t => .next (adapterTick a t)
  | .fault r => .fault r
  | .refused r => .refused r

/-! ### Placing an instruction where the next step runs it -/

/-- The inputs with the next tick's replaced. -/
def withNextInput (i : TickInput) (s : State) : State := { s with inputs := i :: s.inputs.tail }

/-- `UPD` in the next tick (R62): the word's last byte arrives in it and completes the group of which the adapter holds the
first three, the only way an update is delivered (R110, R117, notes/assumptions/11.md). -/
def withNextGroup (w : Word) (s : State) : State :=
  withNextInput ⟨false, .byte (trimOf w)⟩ { s with held := .three (yawOf w) (pitchOf w) (throttleByteOf w) }

/-- The state with no reset in the next tick. -/
def withoutNextReset (s : State) : State :=
  if (nextInput s).rst then withNextInput ⟨false, (nextInput s).arrival⟩ s else s

/-- `CMD` with the data bit of index `i` set to `b`. -/
def withDataBit (b : Bool) (i : BitIndex) (cmd : Word) : Word :=
  if b then cmd ||| (1#32 <<< (31 - i.toNat)) else cmd &&& ~~~(1#32 <<< (31 - i.toNat))

/-- The state whose next step runs what a code stands for (notes/assumptions/3.md): a phase code in `PHASE`, with a running
countdown where the phase counts one; a symbol at its first tick; an update or a port write as the group completed in the next tick;
the ready byte by a boundary that ends a wait. -/
def placeCode (c : Code) (s : State) : State :=
  match c with
  | .phase p =>
    if p = phaseStart || p = phaseReserved then withoutNextReset { s with phase := p }
    else withoutNextReset { s with phase := p, rem := if s.rem = 0#17 then 1#17 else s.rem }
  | .symbol l =>
    match l.toNat with
    | 2 => withoutNextReset { s with phase := phaseStart }
    | 3 => withoutNextReset (burstEntry { s with phase := phaseFmark })
    | n => withoutNextReset (burstEntry { s with phase := phaseBmark, cmd := withDataBit (n == 1) s.bitidx s.cmd })
  | .update b0 b1 b2 b3 => withNextGroup (packWord b0 b1 b2 b3) s
  | .ready b =>
    if b = Config.readyByte then withoutNextReset { s with phase := phasePace, rem := 0#17 } else s
  | .port v d => if v = 1#1 then withNextGroup d s else s

/-- The state whose next step runs the instruction of a table row's bits; unchanged where the bits are no code. -/
def placeTableWord (nbits w : Nat) (s : State) : State :=
  match tableCode nbits w with
  | some c => placeCode c s
  | none => s

end Sys2Proof.Machine
end

