-- ==== Sys2Proof/Machine/HostInterface.lean ====
section
/-! DEFINITION. The host interface (spec/45_host_interface.md) and the mailbox port (spec/44_sequencer.md rule R95): the
meanings of `UPD`, `RDY` and `MAILBOX_WRITE`. -/

namespace Sys2Proof.Machine

/-- `UPD` (R110): the complete group is delivered on the port and written to the mailbox (R95). -/
def execUpd (yaw pitch : Byte) (channel : Bool) (throttle : BitVec 7) (trim : Byte) (s : State) :
    Host.Outcome State Fault Refusal :=
  .next (deliver (fieldsWord yaw pitch channel throttle trim) s)

/-- `RDY` (R112): the sentinel byte goes to the host. -/
def execRdy (s : State) : Host.Outcome State Fault Refusal := .next (sendReadyByte s)

/-- `MAILBOX_WRITE` (R95). -/
def execMailboxWrite (data : Word) (s : State) : Host.Outcome State Fault Refusal := .next (mailboxWrite data s)

end Sys2Proof.Machine
end

