-- ==== Sys2Proof/Machine/SymbolEncoder.lean ====
section
/-! DEFINITION. The Symbol Encoder (spec/41_symbol_encoder.md): `ENCODE_BIT` and the two data symbols of
spec/30_encoding.md rule R54. -/

namespace Sys2Proof.Machine

/-- A data symbol run to its end (R54, R66): the bit-start burst, then the bit's space. -/
def dataSymbol (b : Bool) (s : State) : State := holdLow (symbolSpace b) (emitPulses Config.bitCycles s)

/-- `ENCODE_BIT b` (R66), with its return value `isOne`, which no register holds (R29). -/
def encodeBit (b : Bool) (s : State) : State × Bool := (dataSymbol b s, b)

/-- `ENCODE_BIT b` (R66). -/
def execEncodeBit (b : Bool) (s : State) : Host.Outcome State Fault Refusal := .next (encodeBit b s).1

/-- Symbol ONE (R54): `MARK 12; SPACE 688`. -/
def execOne (s : State) : Host.Outcome State Fault Refusal := .next (dataSymbol true s)

/-- Symbol ZERO (R54): `MARK 12; SPACE 288`. -/
def execZero (s : State) : Host.Outcome State Fault Refusal := .next (dataSymbol false s)

end Sys2Proof.Machine
end

