-- ==== Sys2Proof/Machine/PacketFramer.lean ====
section
/-! DEFINITION. The Packet Framer (spec/42_packet_framer.md): `TRANSMIT`, and the header and footer symbols. -/

namespace Sys2Proof.Machine

/-- The header run to its end (R69): `MARK 77; SPACE 1998`. -/
def headerSymbol (s : State) : State := holdLow Config.hdrSpace (emitPulses Config.hdrCycles s)

/-- The footer run to its end (R71): `MARK 12`, with no space. -/
def footerSymbol (s : State) : State := emitPulses Config.ftrCycles s

/-- Step 2 of `TRANSMIT` (R68, R70): for each index the data bit is encoded, then tallied. -/
def frameBits (cmd : Word) : List BitIndex → State → State
  | [], s => s
  | i :: is, s =>
    let r := encodeBit (dataBit cmd i) { s with bitidx := i }
    frameBits cmd is (tally r.2 r.1)

/-- `TRANSMIT cmd` (R68): steps 1 to 4, the statistics cleared first. -/
def transmit (cmd : Word) (s : State) : State :=
  let t := footerSymbol (frameBits cmd bitIndexes (headerSymbol (clearStatistics s)))
  { t with elapsed := BitVec.ofNat 17 (totalTime t.ones t.zeros) }

/-- `TRANSMIT cmd` (R68). -/
def execTransmit (cmd : Word) (s : State) : Host.Outcome State Fault Refusal := .next (transmit cmd s)

/-- Symbol HDR (R54, R69). -/
def execHdr (s : State) : Host.Outcome State Fault Refusal := .next (headerSymbol s)

/-- Symbol FTR (R54, R71). -/
def execFtr (s : State) : Host.Outcome State Fault Refusal := .next (footerSymbol s)

end Sys2Proof.Machine
end

