-- ==== Sys2Proof/Machine/PulseGenerator.lean ====
section
/-! DEFINITION. The Pulse Generator (spec/40_pulse_generator.md): the meaning of `EMIT_PULSES`. -/

namespace Sys2Proof.Machine

/-- `EMIT_PULSES n` (R63). A count of 0 is refused (decision D27). -/
def execEmitPulses (n : Cycles) (s : State) : Host.Outcome State Fault Refusal :=
  if n = 0#7 then .refused .zeroCycleCount else .next (emitPulses n.toNat s)

end Sys2Proof.Machine
end

