-- ==== Sys2Proof/Machine/RatePacer.lean ====
section
/-! DEFINITION. The Rate Pacer (spec/43_rate_pacer.md): `RESIDUAL_DELAY` and `PACE_WAIT`. -/

namespace Sys2Proof.Machine

/-- `RESIDUAL_DELAY o z` (R81): the returned residual stands in `RESID`, the register of the pacer's result (R23). -/
def execResidualDelay (ones zeros : Count) (s : State) : Host.Outcome State Fault Refusal :=
  .next { s with resid := BitVec.ofInt 32 (residualOf Config.targetPeriod ones zeros) }

/-- `PACE_WAIT w` run to its end (R84): `emit(0, w)`, with `REM` counted down to 0 and the outputs `ready` and
`ovr_count` as they stood (DESIGN CHOICE, notes/assumptions/7.md). -/
def execPaceWait (w : Ticks) (s : State) : Host.Outcome State Fault Refusal := .next (holdLow w.toNat s)

end Sys2Proof.Machine
end

