-- ==== Sys2Proof/Machine/Sequencer.lean ====
section
/-! DEFINITION. The loop sequencer (spec/44_sequencer.md): the meaning of each phase code is steps (1) to (4) of a tick (R91)
in that phase, and `POLL_UPDATE` and `SIGNAL_READY` are the boundary operations. Step (5) and reset are the tick's own
(Machine/Step.lean). -/

namespace Sys2Proof.Machine

/-- The end of HMARK (R97). -/
def hmarkDone (s : State) : State :=
  { s with phase := phaseHspace, rem := BitVec.ofNat 17 Config.hdrSpace }

/-- The end of HSPACE (R98). -/
def hspaceEnd (s : State) : State := burstEntry { s with phase := phaseBmark }

/-- The end of BMARK (R99): the space of the data bit `CMD[31 - BITIDX]` is loaded. -/
def bmarkDone (s : State) : State :=
  { s with phase := phaseBspace, rem := BitVec.ofNat 17 (symbolSpace (dataBit s.cmd s.bitidx)) }

/-- The end of BSPACE (R100): the tally, then the next bit's burst or, after bit 31, the footer's. -/
def bspaceEnd (s : State) : State :=
  let t := tally (dataBit s.cmd s.bitidx) s
  if s.bitidx = 31#5 then burstEntry { t with phase := phaseFmark }
  else burstEntry { t with bitidx := s.bitidx + 1#5, phase := phaseBmark }

/-- Steps (3) and (4) of a tick in HMARK (R97). -/
def hmarkTick (s : State) : State := burstTick Config.hdrCycles hmarkDone s

/-- Phase START (R92): the boundary after reset, with no ready, which is the header's first tick. -/
def execStart (s : State) : Host.Outcome State Fault Refusal := .next (hmarkTick (boundary (beginTick s)))

/-- Phase HMARK (R97). -/
def execHmark (s : State) : Host.Outcome State Fault Refusal := .next (hmarkTick (beginTick s))

/-- Phase HSPACE (R98). -/
def execHspace (s : State) : Host.Outcome State Fault Refusal := .next (countTick false hspaceEnd (beginTick s))

/-- Phase BMARK (R99). -/
def execBmark (s : State) : Host.Outcome State Fault Refusal :=
  .next (burstTick Config.bitCycles bmarkDone (beginTick s))

/-- Phase BSPACE (R100). -/
def execBspace (s : State) : Host.Outcome State Fault Refusal := .next (countTick false bspaceEnd (beginTick s))

/-- Phase FMARK (R101): at its end the pacer's entry (R83). -/
def execFmark (s : State) : Host.Outcome State Fault Refusal :=
  .next (burstTick Config.ftrCycles paceEntry (beginTick s))

/-- Phase PACE (R102): a tick of the wait, at whose end nothing happens; with `REM = 0` the boundary tick that follows
the wait, with ready (R92, R94), which is the header's first tick. -/
def execPace (s : State) : Host.Outcome State Fault Refusal :=
  if s.rem = 0#17 then .next (hmarkTick (boundary (signalReady (beginTick s))))
  else .next (countTick false (fun t => t) (beginTick s))

/-- Phase code `111` (R103): `fault(ReservedPhase)`. -/
def execReserved111 (_ : State) : Host.Outcome State Fault Refusal := .fault .reservedPhase

/-- `POLL_UPDATE` (R93). -/
def execPollUpdate (s : State) : Host.Outcome State Fault Refusal := .next (pollUpdate s)

/-- `SIGNAL_READY` (R94). -/
def execSignalReady (s : State) : Host.Outcome State Fault Refusal := .next (signalReady s)

end Sys2Proof.Machine
end

