-- ==== Sys2Proof/Machine/Dispatch.lean ====
section
/-! DEFINITION. The dispatch: one arm per instruction, each one call of its meaning. -/

namespace Sys2Proof.Machine

def exec (i : Instr) (s : State) : Host.Outcome State Fault Refusal :=
  match i with
  -- the phase codes (spec/44_sequencer.md)
  | .start => Sys2Proof.Machine.execStart s
  | .hmark => Sys2Proof.Machine.execHmark s
  | .hspace => Sys2Proof.Machine.execHspace s
  | .bmark => Sys2Proof.Machine.execBmark s
  | .bspace => Sys2Proof.Machine.execBspace s
  | .fmark => Sys2Proof.Machine.execFmark s
  | .pace => Sys2Proof.Machine.execPace s
  | .reserved111 => Sys2Proof.Machine.execReserved111 s
  -- the IR symbols (spec/30_encoding.md rule R54)
  | .hdr => Sys2Proof.Machine.execHdr s
  | .one => Sys2Proof.Machine.execOne s
  | .zero => Sys2Proof.Machine.execZero s
  | .ftr => Sys2Proof.Machine.execFtr s
  -- the host messages (spec/45_host_interface.md)
  | .upd y p c t r => Sys2Proof.Machine.execUpd y p c t r s
  | .rdy => Sys2Proof.Machine.execRdy s
  -- the source's operations
  | .emitPulses n => Sys2Proof.Machine.execEmitPulses n s
  | .encodeBit b => Sys2Proof.Machine.execEncodeBit b s
  | .transmit cmd => Sys2Proof.Machine.execTransmit cmd s
  | .residualDelay o z => Sys2Proof.Machine.execResidualDelay o z s
  | .paceWait w => Sys2Proof.Machine.execPaceWait w s
  | .pollUpdate => Sys2Proof.Machine.execPollUpdate s
  | .signalReady => Sys2Proof.Machine.execSignalReady s
  -- the mailbox port (spec/44_sequencer.md rule R95)
  | .mailboxWrite d => Sys2Proof.Machine.execMailboxWrite d s

end Sys2Proof.Machine
end

