-- ==== Sys2Proof/Machine/Step.lean ====
section
/-! DEFINITION. One step is one tick (spec/44_sequencer.md rule R91): reset overrides everything (R121); otherwise the
instruction that `PHASE` selects runs steps (1) to (4), and the adapter's part and the mailbox write follow (step 5). -/

namespace Sys2Proof.Machine

/-- `Tick(in)` (R91). -/
def step (s : State) : Host.Outcome State Fault Refusal :=
  if (nextInput s).rst then .next (resetTick s)
  else endTick (nextInput s).arrival (exec (decodePhase s.phase) (openTick s))

/-- The state whose next step runs the instruction of a table row's bits (notes/assumptions/3.md). -/
def State.withFetchWord (s : State) (nbits w : Nat) : State := placeTableWord nbits w s

end Sys2Proof.Machine
end

