-- ==== Sys2Proof/Machine/Waveform.lean ====
section
/-! DEFINITION. The normative waveform as a function of the command (spec/42_packet_framer.md rule R74), and the reference
decoder of the round-trip property (R77). -/

namespace Sys2Proof.Machine

/-- The level in each tick of a segment list, first tick first. -/
def levels (segs : List Segment) : List Bool := segs.flatMap (fun g => List.replicate g.ticks g.level)

/-- How many ticks a segment list lasts. -/
def duration (segs : List Segment) : Nat := (segs.map Segment.ticks).sum

/-- `Burst(n)` (R74): `n` times 13 ticks high, 13 ticks low. -/
def burst : Nat → List Segment
  | 0 => []
  | n + 1 => ⟨true, Config.halfPeriod⟩ :: ⟨false, Config.halfPeriod⟩ :: burst n

/-- `Sym(b)` (R74). -/
def symbol (b : Bool) : List Segment := burst Config.bitCycles ++ [⟨false, symbolSpace b⟩]

/-- The header of R69. -/
def header : List Segment := burst Config.hdrCycles ++ [⟨false, Config.hdrSpace⟩]

/-- The footer of R71. -/
def footer : List Segment := burst Config.ftrCycles

/-- `Packet(cmd)` (R74, R55). -/
def packet (cmd : Word) : List Segment :=
  header ++ bitIndexes.flatMap (fun i => symbol (dataBit cmd i)) ++ footer

/-- Takes a given list off the front of a segment list. -/
def expect : List Segment → List Segment → Option (List Segment)
  | [], rest => some rest
  | _ :: _, [] => none
  | e :: es, g :: rest => if e = g then expect es rest else none

/-- The bit of a data symbol's space: `d = 688` is 1, `d = 288` is 0, another length is none (R77). -/
def spaceBit (g : Segment) : Option Bool :=
  if g = ⟨false, Config.oneSpace⟩ then some true
  else if g = ⟨false, Config.zeroSpace⟩ then some false else none

/-- Reads data symbols, each `Burst(12)` and one low segment, from the given number of groups (R77). -/
def readSymbols : Nat → List Segment → Option (List Bool × List Segment)
  | 0, rest => some ([], rest)
  | n + 1, segs =>
    match expect (burst Config.bitCycles) segs with
    | some (g :: rest) =>
      match spaceBit g, readSymbols n rest with
      | some b, some (bs, rest') => some (b :: bs, rest')
      | _, _ => none
    | _ => none

/-- The word of bits read most significant first: `Σ bit(i) << (31 - i)` for 32 of them (R77). -/
def wordOfBits (bs : List Bool) : Word := bs.foldl (fun w b => (w <<< 1) ||| (BitVec.ofBool b).setWidth 32) 0

/-- The reference decoder of R77: header, 32 symbols, footer, and nothing after. -/
def decodePacket (segs : List Segment) : Option Word :=
  match expect header segs with
  | none => none
  | some body =>
    match readSymbols 32 body with
    | none => none
    | some (bs, tail) => if tail = footer then some (wordOfBits bs) else none

end Sys2Proof.Machine
end

