-- ==== Sys2Proof/WellFormed.lean ====
section
/-! DEFINITION. The operand ranges the spec gives the instructions: spec/40_pulse_generator.md rule R63 (a count is at least
1, decision D27), spec/43_rate_pacer.md rule R81 (each count 0 to 32) and spec/10_state.md rule R21 (`REM` is at most
100000). Every other operand takes every value of its width. -/

namespace Sys2Proof

/-- Is each operand in the range the instruction's rule gives it? -/
def Instr.wellFormed : Instr → Bool
  | .start => true
  | .hmark => true
  | .hspace => true
  | .bmark => true
  | .bspace => true
  | .fmark => true
  | .pace => true
  | .reserved111 => true
  | .hdr => true
  | .one => true
  | .zero => true
  | .ftr => true
  | .upd _ _ _ _ _ => true
  | .rdy => true
  | .emitPulses n => n != 0
  | .encodeBit _ => true
  | .transmit _ => true
  | .residualDelay o z => decide (o.toNat ≤ 32) && decide (z.toNat ≤ 32)
  | .paceWait w => decide (w.toNat ≤ Config.targetPeriod)
  | .pollUpdate => true
  | .signalReady => true
  | .mailboxWrite _ => true

end Sys2Proof
end

