-- ==== Sys2Proof/Safety.lean ====
section
/-! DEFINITION. The terms claims are stated in: the boundary (spec/44_sequencer.md rule R92), the invariant of
spec/10_state.md rule R33, runs of ticks (R107), and what a tick alone changes. -/

namespace Sys2Proof.Machine

/-- Does the next tick start a packet cycle (R92)? -/
def atBoundary (s : State) : Bool := s.phase == phaseStart || (s.phase == phasePace && s.rem == 0#17)

/-- The command that the packet of a boundary tick sends: the mailbox's if it holds one, else `CMD` (R93). -/
def polledCommand (s : State) : Word := if s.mbxV then s.mbx else s.cmd

/-- Is the phase a burst (R96)? -/
def burstPhase (p : PhaseCode) : Bool := p == phaseHmark || p == phaseBmark || p == phaseFmark

/-- `k` ticks, to the first fault or refusal (R107). -/
def run : Nat → State → Host.Outcome State Fault Refusal
  | 0, s => .next s
  | k + 1, s =>
    match step s with
    | .next t => run k t
    | .fault r => .fault r
    | .refused r => .refused r

/-- No reset in the next `n` ticks. -/
def noResetWithin (n : Nat) (s : State) : Prop := ∀ i ∈ s.inputs.take n, i.rst = false

/-- The record of `ir_out`, one level a tick, the oldest first. -/
def outputLevels (s : State) : List Bool := levels s.wave.reverse

/-- The record's canonical form: no empty run, and neighbouring runs of different level. -/
def waveWf : List Segment → Bool
  | [] => true
  | [g] => decide (0 < g.ticks)
  | g :: h :: older => decide (0 < g.ticks) && (g.level != h.level) && waveWf (h :: older)

/-- The statistics after the first `n` data bits of the packet (R33, R72). -/
abbrev countedBits (n : Nat) (s : State) : Prop :=
  s.ones.toNat = onesAmong s.cmd (bitIndexes.take n) ∧ s.ones.toNat + s.zeros.toNat = n

/-- A burst of `n` cycles is running (R33). -/
abbrev burstRunning (n : Nat) (s : State) : Prop := 1 ≤ s.rem.toNat ∧ s.rem.toNat ≤ 13 ∧ s.cyc.toNat < n

/-- The countdown runs and holds at most `d` (R33). -/
abbrev counting (d : Nat) (s : State) : Prop := 1 ≤ s.rem.toNat ∧ s.rem.toNat ≤ d

/-- The invariant: R33's clauses, made inductive by the counts of the packet's first bits, with the overrun counter at 0
(R87) and the record of `ir_out` canonical. -/
structure Invariant (s : State) : Prop where
  notReserved : s.phase ≠ phaseReserved
  hmark : s.phase = phaseHmark → countedBits 0 s ∧ s.bitidx = 0#5 ∧ burstRunning 77 s
  hspace : s.phase = phaseHspace → countedBits 0 s ∧ s.bitidx = 0#5 ∧ counting 1998 s
  bmark : s.phase = phaseBmark → countedBits s.bitidx.toNat s ∧ burstRunning 12 s
  bspace : s.phase = phaseBspace →
    countedBits s.bitidx.toNat s ∧ counting (symbolSpace (dataBit s.cmd s.bitidx)) s
  fmark : s.phase = phaseFmark → countedBits 32 s ∧ burstRunning 12 s
  pace : s.phase = phasePace → countedBits 32 s ∧ s.rem.toNat ≤ 76488 - 400 * popcount s.cmd
  paceResults : s.phase = phasePace →
    s.elapsed.toNat = 23512 + 400 * popcount s.cmd ∧ s.resid.toInt = 76488 - 400 * popcount s.cmd
  noOverrun : s.ovrCnt = 0#16
  recordCanonical : waveWf s.wave = true

/-- What a tick changes by passing (R91 steps 3 and 4): the outputs, one more tick of the record, and one tick less to
go. -/
def ticked (level : Bool) (s : State) : State :=
  { s with
    irOut := level
    ready := false
    ovrCount := s.ovrCnt
    wave := record level 1 s.wave
    rem := s.rem - 1#17 }

/-- The state with the mailbox, the adapter and the coming inputs of another (the environment's side of R13). -/
def withEnvironmentOf (e s : State) : State :=
  { s with mbx := e.mbx, mbxV := e.mbxV, updPort := e.updPort, held := e.held, inputs := e.inputs }

/-- Do two states agree in everything but the environment's side: the mailbox, the adapter's held bytes, the update port
and the coming inputs? -/
def sameBlock (s t : State) : Prop := withEnvironmentOf t s = t

/-- Does the arrival deliver a complete group to the mailbox (R109, R110)? -/
def delivers (a : Arrival) (h : Held) : Bool :=
  match a, h with
  | .nothing, _ => false
  | .byte _, .three _ _ _ => true
  | .byte _, .zero => false
  | .byte _, .one _ => false
  | .byte _, .two _ _ => false

/-- Host bytes reaching the adapter one after another (R109). -/
def takeBytes : List Byte → State → State
  | [], s => s
  | b :: bs, s => takeBytes bs (takeByte b s)

end Sys2Proof.Machine
end

