-- ==== Sys2Proof/Certificates/Slice0/Obligations.lean ====
section
/-! DEFINITION. The statements for the provers, from the numbered rules of spec/. -/

open Sys2Proof Sys2Proof.Machine

/-! ### Encodings -/

/-- Every well-formed instruction whose row has a bit pattern (spec/opcode_table.json) has a code, in its row's format, and
the decoder reads the instruction back from it with every operand. -/
def Obligations.DecodeOfEncode : Prop :=
  ∀ i : Instr, i.wellFormed = true → i.format ≠ .operation →
    ∃ c, encode i = some c ∧ c.format = i.format ∧ decode c = .ok i

/-- Each code has one meaning (R58, R54, R52, R53, R59): what decodes to an instruction is that instruction's code. -/
def Obligations.EncodeOfDecode : Prop :=
  ∀ (c : Code) (i : Instr), decode c = .ok i → encode i = some c

/-- Words written out from the tables of R54, R58, R52, R53 decode to what they stand for, and the bytes and port bits that
R60 and R95 leave without a meaning are refused. -/
def Obligations.WrittenWordsDecode : Prop :=
  decode (.phase 0b000) = .ok .start ∧ decode (.phase 0b100) = .ok .bspace ∧ decode (.phase 0b110) = .ok .pace
    ∧ decode (.symbol 0b10) = .ok .hdr ∧ decode (.symbol 0b01) = .ok .one ∧ decode (.symbol 0b11) = .ok .ftr
    ∧ decode (.update 0x7F 0x01 0x83 0xFF) = .ok (.upd 0x7F 0x01 true 0x03 0xFF)
    ∧ decode (.ready 129) = .ok .rdy ∧ decode (.port 1 0x3F3F003F) = .ok (.mailboxWrite 0x3F3F003F)
    ∧ decode (.ready 128) = .error (.notSentinel 128) ∧ decode (.port 0 7) = .error .noWriteSelected

/-- R48: the layout of the command word, both ways. -/
def Obligations.CommandWordLayout : Prop :=
  (∀ (y p : Byte) (c : Bool) (t : BitVec 7) (r : Byte),
    yawOf (fieldsWord y p c t r) = y ∧ pitchOf (fieldsWord y p c t r) = p ∧ channelOf (fieldsWord y p c t r) = c
      ∧ throttleOf (fieldsWord y p c t r) = t ∧ trimOf (fieldsWord y p c t r) = r
      ∧ throttleByteOf (fieldsWord y p c t r) = throttleByte c t)
  ∧ ∀ w : Word, fieldsWord (yawOf w) (pitchOf w) (channelOf w) (throttleOf w) (trimOf w) = w

/-- R51: data bit `i` is `CMD[31 - i]`, so the four fields go out in order, each most significant bit first, and bit 16 is
the channel flag. -/
def Obligations.DataBitOrder : Prop :=
  ∀ cmd : Word,
    (∀ i : BitIndex, dataBit cmd i = cmd.getLsbD (31 - i.toNat))
    ∧ (∀ k : Nat, k < 8 →
        dataBit cmd (BitVec.ofNat 5 k) = (yawOf cmd).getLsbD (7 - k)
        ∧ dataBit cmd (BitVec.ofNat 5 (8 + k)) = (pitchOf cmd).getLsbD (7 - k)
        ∧ dataBit cmd (BitVec.ofNat 5 (16 + k)) = (throttleByteOf cmd).getLsbD (7 - k)
        ∧ dataBit cmd (BitVec.ofNat 5 (24 + k)) = (trimOf cmd).getLsbD (7 - k))
    ∧ dataBit cmd 16 = channelOf cmd

/-! ### Reset -/

/-- The state after reset (R32, R131): the registers the spec gives a value for, and the outputs. -/
def Obligations.ResetStateValues : Prop :=
  State.reset.cmd = 0x3F3F003F ∧ State.reset.mbxV = false ∧ State.reset.ones = 0 ∧ State.reset.zeros = 0
    ∧ State.reset.bitidx = 0 ∧ State.reset.phase = 0b000 ∧ State.reset.cyc = 0 ∧ State.reset.half = false
    ∧ State.reset.rem = 0 ∧ State.reset.elapsed = 0 ∧ State.reset.resid = 0 ∧ State.reset.ovrCnt = 0
    ∧ State.reset.irOut = false ∧ State.reset.ready = false ∧ State.reset.ovrCount = 0
    ∧ State.reset.held = .zero

/-- A tick with `rst = 1` loads every register's reset value and drives the outputs 0 (R131), in every state and whatever
arrives in it, and the adapter's held bytes are dropped. That a byte which arrives in the reset tick itself is lost too is the
model's reading (notes/assumptions/6.md). -/
def Obligations.ResetTickLoadsResetState : Prop :=
  ∀ s : State, (nextInput s).rst = true →
    ∃ t, step s = .next t
      ∧ t.cmd = 0x3F3F003F ∧ t.mbxV = false ∧ t.ones = 0#6 ∧ t.zeros = 0#6 ∧ t.bitidx = 0#5 ∧ t.phase = phaseStart
      ∧ t.cyc = 0 ∧ t.half = false ∧ t.rem = 0 ∧ t.elapsed = 0 ∧ t.resid = 0 ∧ t.ovrCnt = 0
      ∧ t.irOut = false ∧ t.ready = false ∧ t.ovrCount = 0
      ∧ t.held = .zero

/-! ### The step -/

/-- R91: outside reset a tick runs the instruction that `PHASE` decodes to on the state with the tick's inputs taken, and
then the adapter's part of the tick: the sentinel byte for a ready strobe, and what arrives. How the model holds the
inputs and the ports is its own (notes/assumptions/5.md, 10.md). -/
def Obligations.StepRunsDecodedInstruction : Prop :=
  ∀ (s : State) (i : Instr), (nextInput s).rst = false → decode (.phase s.phase) = .ok i →
    step s = endTick (nextInput s).arrival (exec i (openTick s))

/-- The reserved code faults and is never written (R103); and it is the only state in which a tick stops (R106, R118): every
other state goes on, also one no run reaches, where `REM` at 0 or a statistic at 63 goes on with a free value
(notes/assumptions/1.md, 2.md). -/
def Obligations.OnlyReservedPhaseStops : Prop :=
  (∀ s : State, exec .reserved111 s = .fault .reservedPhase)
  ∧ (∀ s : State, (nextInput s).rst = false → s.phase = 0b111#3 → step s = .fault .reservedPhase)
  ∧ (∀ s t : State, step s = .next t → t.phase ≠ 0b111#3)
  ∧ (∀ s : State, s.phase ≠ 0b111#3 → ∃ t, step s = .next t)

/-- The invariant of R33 at reset. -/
def Obligations.InvariantAtReset : Prop := Invariant State.reset

/-- The invariant of R33, with the overrun counter at 0 (R87) and the output record canonical, is kept by every tick,
whatever the environment does in it. The record is the model's own (notes/assumptions/10.md). -/
def Obligations.StepKeepsInvariant : Prop :=
  ∀ s t : State, Invariant s → step s = .next t → Invariant t

/-- R118, R106: under the invariant every tick completes; and it draws none of the model's free values
(notes/assumptions/1.md, 2.md), so no run from reset rests on one. -/
def Obligations.InvariantTickCompletesWithoutFreeValue : Prop :=
  ∀ s : State, Invariant s → ∃ t, step s = .next t ∧ t.draws = s.draws

/-! ### The phases -/

/-- A tick that does not end its half-cycle, space or wait (R91 steps 3 and 4, R96): in a burst the output is high exactly in
the high half-cycle, elsewhere low; one tick less is left; all else stays. -/
def Obligations.RunningPhaseTicks : Prop :=
  ∀ s : State,
    (2 ≤ s.rem.toNat →
      exec .hmark s = .next (ticked (!s.half) s) ∧ exec .bmark s = .next (ticked (!s.half) s)
      ∧ exec .fmark s = .next (ticked (!s.half) s)
      ∧ exec .hspace s = .next (ticked false s) ∧ exec .bspace s = .next (ticked false s))
    ∧ (1 ≤ s.rem.toNat → exec .pace s = .next (ticked false s))

/-- `BurstStep` before the burst's end (R63): the high half-cycle is followed by 13 ticks of the low one, and a low
half-cycle that does not complete the burst by the next cycle's high one. The sum `CYC + 1` is 7 bits wide, also where no run
arrives (notes/assumptions/9.md). -/
def Obligations.BurstHalfCycles : Prop :=
  ∀ s : State, s.rem = 1#17 →
    (s.half = false →
      exec .hmark s = .next { ticked true s with half := true, rem := 13#17 }
      ∧ exec .bmark s = .next { ticked true s with half := true, rem := 13#17 }
      ∧ exec .fmark s = .next { ticked true s with half := true, rem := 13#17 })
    ∧ (s.half = true →
      ((s.cyc + 1#7).toNat < 77 →
        exec .hmark s = .next { ticked false s with cyc := s.cyc + 1#7, half := false, rem := 13#17 })
      ∧ ((s.cyc + 1#7).toNat < 12 →
        exec .bmark s = .next { ticked false s with cyc := s.cyc + 1#7, half := false, rem := 13#17 }
        ∧ exec .fmark s = .next { ticked false s with cyc := s.cyc + 1#7, half := false, rem := 13#17 }))

/-- The ends of the header's burst and space and of a bit-start burst (R97, R98, R99): the space loaded after a bit's burst
is 688 for `CMD[31 - BITIDX] = 1` and 288 for 0. The sum `CYC + 1` as in BurstHalfCycles (notes/assumptions/9.md). -/
def Obligations.MarkAndHeaderSpaceEnds : Prop :=
  ∀ s : State, s.rem = 1#17 →
    (s.half = true → 77 ≤ (s.cyc + 1#7).toNat →
      exec .hmark s = .next { ticked false s with cyc := s.cyc + 1#7, phase := phaseHspace, rem := 1998#17 })
    ∧ exec .hspace s = .next { ticked false s with phase := phaseBmark, cyc := 0#7, half := false, rem := 13#17 }
    ∧ (s.half = true → 12 ≤ (s.cyc + 1#7).toNat → s.cmd.getLsbD (31 - s.bitidx.toNat) = true →
      exec .bmark s = .next { ticked false s with cyc := s.cyc + 1#7, phase := phaseBspace, rem := 688#17 })
    ∧ (s.half = true → 12 ≤ (s.cyc + 1#7).toNat → s.cmd.getLsbD (31 - s.bitidx.toNat) = false →
      exec .bmark s = .next { ticked false s with cyc := s.cyc + 1#7, phase := phaseBspace, rem := 288#17 })

/-- The end of a bit's space (R100): the bit is tallied and the next bit's burst starts, after bit 31 the footer's, with
`BITIDX` staying 31. In a state no run reaches, where the statistic to add to holds 63, the sum is a free value
(notes/assumptions/2.md) and every other effect is the same. -/
def Obligations.BitSpaceEndTallies : Prop :=
  ∀ s : State, s.rem = 1#17 →
    ∃ (o z : Count) (d : Nat),
      exec .bspace s = .next { ticked false s with
        ones := o, zeros := z, draws := d
        bitidx := if s.bitidx = 31#5 then 31#5 else s.bitidx + 1#5
        phase := if s.bitidx = 31#5 then phaseFmark else phaseBmark
        cyc := 0#7, half := false, rem := 13#17 }
      ∧ (s.cmd.getLsbD (31 - s.bitidx.toNat) = true → z = s.zeros ∧ (s.ones ≠ 63#6 → o = s.ones + 1#6 ∧ d = s.draws))
      ∧ (s.cmd.getLsbD (31 - s.bitidx.toNat) = false → o = s.ones ∧ (s.zeros ≠ 63#6 → z = s.zeros + 1#6 ∧ d = s.draws))

/-- The end of the footer's burst (R101, R83): the elapsed time, the residual and the wait are computed from the
statistics, and the wait begins. The overrun counter stays, since with the fixed constants the residual is positive
whatever the statistics hold. The sum `CYC + 1` as in BurstHalfCycles (notes/assumptions/9.md). -/
def Obligations.FooterEndEntersPace : Prop :=
  ∀ s : State, s.rem = 1#17 → s.half = true → 12 ≤ (s.cyc + 1#7).toNat →
    ∃ (e w : Ticks) (r : BitVec 32),
      exec .fmark s = .next { ticked false s with
        cyc := s.cyc + 1#7, elapsed := e, resid := r, rem := w, phase := phasePace }
      ∧ e.toNat = 14296 + 688 * s.ones.toNat + 288 * s.zeros.toNat
      ∧ r.toInt = 100000 - (14296 + 688 * (s.ones.toNat : Int) + 288 * (s.zeros.toNat : Int))
      ∧ (w.toNat : Int) = r.toInt

/-- The boundary tick (R92, R93, R94): after reset with no ready, after the wait with ready; the poll, the cleared
statistics and the header's first tick. -/
def Obligations.BoundaryTickStartsPacket : Prop :=
  ∀ s : State,
    let t := { s with
      cmd := if s.mbxV then s.mbx else s.cmd
      mbxV := false, ones := 0#6, zeros := 0#6, bitidx := 0#5
      phase := phaseHmark, cyc := 0#7, half := false, rem := 12#17
      irOut := true, ovrCount := s.ovrCnt, wave := record true 1 s.wave }
    exec .start s = .next { t with ready := false }
    ∧ (s.rem = 0#17 → exec .pace s = .next { t with ready := true })

/-- What every tick of the five phases between two boundaries does and leaves alone, in every state, also one whose
countdown stands at 0, where the next countdown is a free value (notes/assumptions/1.md) and no run arrives (R33). -/
def Obligations.PhaseTickFrame : Prop :=
  ∀ (s : State) (i : Instr), i ∈ [Instr.hmark, .hspace, .bmark, .bspace, .fmark] →
    ∃ t, exec i s = .next t
      ∧ t.irOut = (!s.half && decide (i = .hmark ∨ i = .bmark ∨ i = .fmark))
      ∧ t.wave = record t.irOut 1 s.wave ∧ t.ready = false ∧ t.ovrCount = s.ovrCnt
      ∧ t.cmd = s.cmd ∧ t.mbx = s.mbx ∧ t.mbxV = s.mbxV ∧ t.ovrCnt = s.ovrCnt
      ∧ t.updPort = s.updPort ∧ t.held = s.held ∧ t.hostTx = s.hostTx ∧ t.inputs = s.inputs
      ∧ (i ≠ .bspace → t.ones = s.ones ∧ t.zeros = s.zeros ∧ t.bitidx = s.bitidx)
      ∧ (i ≠ .fmark → t.elapsed = s.elapsed ∧ t.resid = s.resid)

/-! ### The outputs -/

/-- R96: `ir_out` in a tick is 1 exactly when, after any boundary action, the phase is a burst and `HALF = 0`; in a reset
tick it is 0. -/
def Obligations.OutputLevelRule : Prop :=
  ∀ s : State,
    ((nextInput s).rst = true → ∃ t, step s = .next t ∧ t.irOut = false)
    ∧ ((nextInput s).rst = false → s.phase ≠ 0b111#3 →
        ∃ t, step s = .next t
          ∧ (t.irOut = true ↔
              atBoundary s = true
              ∨ ((s.phase = phaseHmark ∨ s.phase = phaseBmark ∨ s.phase = phaseFmark) ∧ s.half = false)))

/-- The record of the output, on which the waveform statements rest (the model's own, notes/assumptions/10.md), is the
output trace of R107: every tick adds the level it drove, and nothing else. -/
def Obligations.RecordFollowsOutput : Prop :=
  ∀ s : State, s.phase ≠ 0b111#3 → ∃ t, step s = .next t ∧ outputLevels t = outputLevels s ++ [t.irOut]

/-- The strobe and the counter port (R92, R94, R14): outside reset `ready` is raised exactly on the boundary tick that follows
a wait, and `ovr_count` shows the counter as held at the start of the tick; in a reset tick both are 0. -/
def Obligations.ReadyAndCounterPorts : Prop :=
  ∀ s : State,
    ((nextInput s).rst = true → ∃ t, step s = .next t ∧ t.ready = false ∧ t.ovrCount = 0#16)
    ∧ ((nextInput s).rst = false → s.phase ≠ 0b111#3 →
        ∃ t, step s = .next t ∧ (t.ready = true ↔ s.phase = phasePace ∧ s.rem = 0#17) ∧ t.ovrCount = s.ovrCnt)

/-- R112: for every tick with `ready = 1` the adapter sends one byte 129 to the host, and no other byte. -/
def Obligations.SentinelByteRule : Prop :=
  ∀ s : State, s.phase ≠ 0b111#3 →
    ∃ t, step s = .next t ∧ t.hostTx = if t.ready then some 129#8 else none

/-! ### The command cell and the environment -/

/-- A boundary tick with the environment's part (R93, R95, R121): the poll sees the mailbox as it stood at the start of
the tick, a group that the adapter completes in the tick (R109, R110) waits in the mailbox, and otherwise the mailbox is
empty after it. That nothing else delivers is R117 (notes/assumptions/11.md). -/
def Obligations.BoundaryPollMissesSameTickWrite : Prop :=
  ∀ s : State, (nextInput s).rst = false → atBoundary s = true →
    ∃ t, step s = .next t
      ∧ t.cmd = (if s.mbxV then s.mbx else s.cmd)
      ∧ t.ones = 0#6 ∧ t.zeros = 0#6 ∧ t.bitidx = 0#5 ∧ t.phase = phaseHmark
      ∧ t.mbxV = delivers (nextInput s).arrival s.held
      ∧ ∀ b0 b1 b2 b3 : Byte, s.held = .three b0 b1 b2 → (nextInput s).arrival = .byte b3 →
          t.mbx = b0 ++ b1 ++ b2 ++ b3

/-- `CMD` is written only on a boundary tick (R15, R73): in every other tick outside reset it stays, whatever
arrives. -/
def Obligations.CommandStaysBetweenBoundaries : Prop :=
  ∀ s : State, (nextInput s).rst = false → s.phase ≠ 0b111#3 → atBoundary s = false →
    ∃ t, step s = .next t ∧ t.cmd = s.cmd

/-- The mailbox write (R95): a tick with `upd_valid = 1`, the tick in which the fourth byte of a group arrives
(notes/assumptions/11.md), is the tick in which nothing arrives but for the mailbox, which holds the group whatever was
pending, the adapter, which holds no byte, and the port as the model shows it (notes/assumptions/10.md). With `rst = 1` the
arrival changes nothing at all (for a byte: notes/assumptions/6.md). -/
def Obligations.MailboxWriteRule : Prop :=
  (∀ (s : State) (b0 b1 b2 b3 : Byte), s.held = .three b0 b1 b2 → nextInput s = ⟨false, .byte b3⟩ → s.phase ≠ 0b111#3 →
    ∃ t, step (withNextInput ⟨false, .nothing⟩ s) = .next t
      ∧ step s = .next { t with
          held := .zero, updPort := some (b0 ++ b1 ++ b2 ++ b3), mbx := b0 ++ b1 ++ b2 ++ b3, mbxV := true })
  ∧ ∀ (s : State) (b : Byte), nextInput s = ⟨true, .byte b⟩ →
      ∃ t, step s = .next t ∧ step (withNextInput ⟨true, .nothing⟩ s) = .next t

/-- R64, R139: off the boundary nothing the environment holds or brings changes what the block does: two states that
differ only in the mailbox, the adapter's bytes, the update port and the coming inputs (none of them a reset) go to
two states that differ in nothing else. -/
def Obligations.EnvironmentCannotDisturbTick : Prop :=
  ∀ s e : State, s.phase ≠ 0b111#3 → atBoundary s = false →
    (nextInput s).rst = false → (nextInput e).rst = false →
    ∃ t u, step s = .next t ∧ step (withEnvironmentOf e s) = .next u ∧ sameBlock t u

/-- R16: while `MBX_V = 0` the value of `MBX` is unobservable: another value changes nothing in the next state but
`MBX` itself. So no claim rests on the value the model gives it at reset (notes/assumptions/4.md). -/
def Obligations.EmptyMailboxValueUnobservable : Prop :=
  ∀ (s : State) (w : Word), s.phase ≠ 0b111#3 → s.mbxV = false →
    ∃ t u, step s = .next t ∧ step { s with mbx := w } = .next u ∧ { u with mbx := t.mbx } = t

/-- R42, R116: an update in the mailbox is the command of the packet that starts at the next boundary tick, if no later
group is delivered and no reset comes before it. -/
def Obligations.PendingUpdateReachesNextPacket : Prop :=
  ∀ (n : Nat) (s u : State), s.mbxV = true → run n s = .next u → atBoundary u = true → (nextInput u).rst = false →
    (∀ k v, k < n → run k s = .next v →
      atBoundary v = false ∧ (nextInput v).rst = false ∧ delivers (nextInput v).arrival v.held = false) →
    ∃ t, step u = .next t ∧ t.cmd = s.mbx

/-- The grouping of R109: three bytes are held and change nothing else; the fourth delivers the group in arrival order, with
the mailbox write of R95 and the port as the model shows it (R110, notes/assumptions/10.md); and a reset tick leaves no byte
held, also where a byte arrives in it, which the model takes as lost (notes/assumptions/6.md). -/
def Obligations.AdapterGroupsFours : Prop :=
  (∀ (s : State) (x : Byte),
    (s.held = .zero → takeByte x s = { s with held := .one x })
    ∧ (∀ a, s.held = .one a → takeByte x s = { s with held := .two a x })
    ∧ (∀ a b, s.held = .two a b → takeByte x s = { s with held := .three a b x })
    ∧ (∀ a b c, s.held = .three a b c →
        takeByte x s = { s with held := .zero, updPort := some (a ++ b ++ c ++ x), mbx := a ++ b ++ c ++ x, mbxV := true }))
  ∧ ∀ s : State, (nextInput s).rst = true → ∃ t, step s = .next t ∧ t.held = .zero

/-- The adapter against the decoder of the byte stream (R109 to R111): from an empty adapter a stream that opens with a
complete group runs the `UPD` that the decoder reads, and goes on with the rest; a shorter stream delivers nothing. -/
def Obligations.AdapterRunsDecodedUpdates : Prop :=
  ∀ (bytes : List Byte) (s : State), s.held = .zero →
    (∀ i rest, decodeHostBytes bytes = .ok (i, rest) →
      ∃ t, exec i s = .next t ∧ t.held = .zero ∧ takeBytes bytes s = takeBytes rest t)
    ∧ (decodeHostBytes bytes = .error .insufficientData →
      ∃ h, takeBytes bytes s = { s with held := h })

/-- A delivery in its tick (R110): the byte that completes a group puts the four bytes on the port and, at the end of the
tick, into the mailbox, also on a boundary tick; in a tick without a delivery `upd_valid = 0`. The port is shown as the model
holds it (notes/assumptions/10.md). -/
def Obligations.GroupDeliveryTick : Prop :=
  ∀ s : State, (nextInput s).rst = false → s.phase ≠ 0b111#3 →
    (∀ b0 b1 b2 b3 : Byte, s.held = .three b0 b1 b2 → (nextInput s).arrival = .byte b3 →
      ∃ t, step s = .next t ∧ t.held = .zero ∧ t.updPort = some (b0 ++ b1 ++ b2 ++ b3)
        ∧ t.mbx = b0 ++ b1 ++ b2 ++ b3 ∧ t.mbxV = true)
    ∧ (delivers (nextInput s).arrival s.held = false → ∃ t, step s = .next t ∧ t.updPort = none)

/-- The environment's moves (R117, notes/assumptions/11.md): in every tick, an update is on the port only if the arriving byte
completes a group of four and `rst = 0` (in a reset tick no group is completed: the model's reading,
notes/assumptions/6.md), and it is that group in arrival order; without one the mailbox holds an update only if it held that one before; and no
byte but 129 goes to the host. The ports as the model shows them (notes/assumptions/10.md). -/
def Obligations.OnlyCompleteGroupsAreDelivered : Prop :=
  ∀ s t : State, step s = .next t →
    (∀ w, t.updPort = some w →
      ∃ b0 b1 b2 b3 : Byte, s.held = .three b0 b1 b2 ∧ nextInput s = ⟨false, .byte b3⟩
        ∧ w = b0 ++ b1 ++ b2 ++ b3 ∧ t.held = .zero ∧ t.mbx = w)
    ∧ (t.updPort = none → t.mbxV = true → s.mbxV = true ∧ t.mbx = s.mbx)
    ∧ ∀ b, t.hostTx = some b → b = 129#8

/-- `UPD` (R110, R95): the message's fields are in the mailbox where R48 puts them, the mailbox holds an update, and
nothing else but the update port, which the model holds (notes/assumptions/10.md), changes. -/
def Obligations.UpdFillsMailbox : Prop :=
  ∀ (y p : Byte) (c : Bool) (t : BitVec 7) (r : Byte) (s : State),
    ∃ w : Word, exec (.upd y p c t r) s = .next { s with updPort := some w, mbx := w, mbxV := true }
      ∧ yawOf w = y ∧ pitchOf w = p ∧ channelOf w = c ∧ throttleOf w = t ∧ trimOf w = r

/-- The boundary and mailbox operations on their own (R93, R94, R95, R112): what each writes, and that it writes nothing
else. The byte to the host is held as the model holds it (notes/assumptions/10.md). -/
def Obligations.BoundaryOperations : Prop :=
  ∀ s : State,
    (s.mbxV = true → exec .pollUpdate s = .next { s with cmd := s.mbx, mbxV := false })
    ∧ (s.mbxV = false → exec .pollUpdate s = .next s)
    ∧ exec .signalReady s = .next { s with ready := true }
    ∧ exec .rdy s = .next { s with hostTx := some 129#8 }
    ∧ ∀ w, exec (.mailboxWrite w) s = .next { s with mbx := w, mbxV := true }

/-! ### The waveform operations -/

/-- `EMIT_PULSES n` (R63): the output adds `n` cycles of 13 ticks high and 13 low, `26 n` ticks; `CYC = n`, `HALF = 1` and
`REM = 0` stay; nothing else changes (the whole run of an operation in one exec is the model's choice,
notes/assumptions/7.md). A count of 0 is refused (decision D27). -/
def Obligations.EmitPulsesBurst : Prop :=
  (∀ (n : Cycles) (s : State), n ≠ 0#7 →
    ∃ w, exec (.emitPulses n) s = .next { s with irOut := false, wave := w, cyc := n, half := true, rem := 0#17 }
      ∧ levels w.reverse
          = outputLevels s ++ (List.replicate n.toNat (List.replicate 13 true ++ List.replicate 13 false)).flatten
      ∧ duration w = duration s.wave + 26 * n.toNat)
  ∧ ∀ s : State, exec (.emitPulses 0#7) s = .refused .zeroCycleCount

/-- The four symbols of R54 and `ENCODE_BIT` (R66): each adds its mark and its space to the output and changes nothing
else but what its burst leaves (the model's choice, notes/assumptions/7.md). -/
def Obligations.SymbolsEmitTheirWaveform : Prop :=
  ∀ s : State,
    (∃ w, exec .hdr s = .next { s with irOut := false, wave := w, cyc := 77#7, half := true, rem := 0#17 }
      ∧ levels w.reverse = outputLevels s ++ levels (burst 77) ++ List.replicate 1998 false)
    ∧ (∃ w, exec .one s = .next { s with irOut := false, wave := w, cyc := 12#7, half := true, rem := 0#17 }
      ∧ levels w.reverse = outputLevels s ++ levels (burst 12) ++ List.replicate 688 false)
    ∧ (∃ w, exec .zero s = .next { s with irOut := false, wave := w, cyc := 12#7, half := true, rem := 0#17 }
      ∧ levels w.reverse = outputLevels s ++ levels (burst 12) ++ List.replicate 288 false)
    ∧ (∃ w, exec .ftr s = .next { s with irOut := false, wave := w, cyc := 12#7, half := true, rem := 0#17 }
      ∧ levels w.reverse = outputLevels s ++ levels (burst 12))
    ∧ ∀ b : Bool, ∃ w, exec (.encodeBit b) s = .next { s with irOut := false, wave := w, cyc := 12#7, half := true, rem := 0#17 }
      ∧ levels w.reverse = outputLevels s ++ levels (burst 12) ++ List.replicate (if b then 688 else 288) false

/-- `TRANSMIT cmd` (R68, R72): the output adds `Packet(cmd)`, the statistics are the packet's, and `ELAPSED` is its
duration; nothing else changes but what the bit loop and the bursts leave (the model's choice,
notes/assumptions/7.md). -/
def Obligations.TransmitSendsPacket : Prop :=
  ∀ (cmd : Word) (s : State),
    ∃ (w : List Segment) (o z : Count) (e : Ticks),
      exec (.transmit cmd) s = .next { s with
        irOut := false, wave := w, ones := o, zeros := z, elapsed := e
        bitidx := 31#5, cyc := 12#7, half := true, rem := 0#17 }
      ∧ levels w.reverse = outputLevels s ++ levels (packet cmd)
      ∧ o.toNat = popcount cmd ∧ o.toNat + z.toNat = 32
      ∧ e.toNat = 23512 + 400 * popcount cmd

/-- A packet lasts `23512 + 400 * popcount(cmd)` ticks (R68, R75), between 23512 and 36312, and it has 34 symbols (R55):
a header, the 32 data symbols, a footer. -/
def Obligations.PacketDuration : Prop :=
  ∀ cmd : Word,
    duration (packet cmd) = 23512 + 400 * popcount cmd ∧ popcount cmd ≤ 32
    ∧ packet cmd = header ++ (bitIndexes.map (fun i => symbol (dataBit cmd i))).flatten ++ footer
    ∧ bitIndexes.length = 32

/-- R77: the reference decoder reads the command back from the packet's segments. -/
def Obligations.PacketRoundTrip : Prop :=
  ∀ cmd : Word, decodePacket (packet cmd) = some cmd

/-- `PACE_WAIT w` (R84): `ir_out` is low for exactly `w` ticks, none for `w = 0`, and `REM` has counted down to 0
(run whole in one exec: the model's choice, notes/assumptions/7.md). -/
def Obligations.PaceWaitHoldsLow : Prop :=
  ∀ (w : Ticks) (s : State),
    ∃ v, exec (.paceWait w) s = .next { s with irOut := if w = 0#17 then s.irOut else false, wave := v, rem := 0#17 }
      ∧ levels v.reverse = outputLevels s ++ List.replicate w.toNat false
      ∧ (w = 0#17 → v = s.wave)

/-- Every instruction that completes keeps the record of the output, the model's own (notes/assumptions/10.md), canonical:
no empty run, and neighbouring runs of different level. -/
def Obligations.RecordStaysCanonical : Prop :=
  ∀ (i : Instr) (s t : State), waveWf s.wave = true → exec i s = .next t → waveWf t.wave = true

/-! ### The pacer -/

/-- `RESIDUAL_DELAY o z` (R81): the residual `TARGET_PERIOD - TotalTime(o, z)` is returned in `RESID`, which is where the
model puts it (notes/assumptions/8.md), and nothing else changes. -/
def Obligations.ResidualDelayResult : Prop :=
  ∀ (o z : Count) (s : State),
    ∃ r : BitVec 32, exec (.residualDelay o z) s = .next { s with resid := r }
      ∧ r.toInt = 100000 - (14296 + 688 * (o.toNat : Int) + 288 * (z.toNat : Int))

/-- R79: the closed forms of `TotalTime` and of the residual, and the source's two scenarios. -/
def Obligations.PacerClosedForms : Prop :=
  (∀ o z : Count, totalTime o z = 14296 + 688 * o.toNat + 288 * z.toNat)
  ∧ (∀ o z : Count, o.toNat + z.toNat = 32 →
      totalTime o z = 23512 + 400 * o.toNat
      ∧ residualOf Config.targetPeriod o z = 76488 - 400 * (o.toNat : Int))
  ∧ totalTime 18 14 = 30712 ∧ residualOf Config.targetPeriod 18 14 = 69288
  ∧ totalTime 0 32 = 23512 ∧ residualOf Config.targetPeriod 0 32 = 76488

/-- R86: the ranges of the pacer's values, all within their registers. -/
def Obligations.PacerRanges : Prop :=
  (∀ o z : Count, o.toNat ≤ 32 → z.toNat ≤ 32 →
    14296 ≤ totalTime o z ∧ totalTime o z ≤ 45528
    ∧ 54472 ≤ residualOf Config.targetPeriod o z ∧ residualOf Config.targetPeriod o z ≤ 85704
    ∧ clampedWait (residualOf Config.targetPeriod o z) ≤ 85704)
  ∧ ∀ s : State, s.ones.toNat + s.zeros.toNat = 32 →
      23512 ≤ (paceEntry s).elapsed.toNat ∧ (paceEntry s).elapsed.toNat ≤ 36312
      ∧ 63688 ≤ (paceEntry s).resid.toInt ∧ (paceEntry s).resid.toInt ≤ 76488
      ∧ (paceEntry s).rem.toNat ≤ 85704

/-- R88: the residual is strictly decreasing in each count, by 688 and by 288, and by 400 along `o + z = 32`. -/
def Obligations.ResidualStrictlyDecreasing : Prop :=
  ∀ (target : Nat) (o z : Count),
    (o.toNat < 63 → residualOf target (o + 1#6) z = residualOf target o z - 688)
    ∧ (z.toNat < 63 → residualOf target o (z + 1#6) = residualOf target o z - 288)
    ∧ (o.toNat + z.toNat = 32 → 1 ≤ z.toNat → residualOf target (o + 1#6) (z - 1#6) = residualOf target o z - 400)

/-- R82: the wait is `max(0, residual)`; a negative residual adds 1 to the overrun counter, saturating, and a residual of 0
does not; for every target period whose residual the countdown can hold (beyond it: notes/assumptions/13.md, on which nothing here
rests). -/
def Obligations.OverrunClampAndCount : Prop :=
  ∀ (target : Nat) (s : State), residualOf target s.ones s.zeros < 131072 →
    let r := residualOf target s.ones s.zeros
    let t := paceEntryFor target s
    ((t.rem.toNat : Int) = max 0 r)
    ∧ (r < 0 → t.ovrCnt.toNat = min (s.ovrCnt.toNat + 1) 0xFFFF)
    ∧ (0 ≤ r → t.ovrCnt = s.ovrCnt)

/-- R87: with the fixed constants the residual is at least 63688 after every packet, and that for 32 ones; the clamp never
changes the wait; and the overrun counter stays 0 from reset on. -/
def Obligations.OverrunCounterStaysZero : Prop :=
  State.reset.ovrCnt = 0
  ∧ (∀ s : State, s.phase ≠ 0b111#3 → s.ovrCnt = 0#16 → ∃ t, step s = .next t ∧ t.ovrCnt = 0#16)
  ∧ residualOf Config.targetPeriod 32#6 0#6 = 63688
  ∧ ∀ o z : Count, o.toNat + z.toNat = 32 →
      63688 ≤ residualOf Config.targetPeriod o z
      ∧ (clampedWait (residualOf Config.targetPeriod o z) : Int) = residualOf Config.targetPeriod o z

/-! ### The packet cycle -/

/-- R104: from any boundary tick the next one comes exactly 100000 ticks later, and none before, whatever the data and
whatever the environment does, when no reset comes between. -/
def Obligations.PacketCyclePeriod : Prop :=
  ∀ s : State, atBoundary s = true → noResetWithin 100000 s →
    (∃ t, run 100000 s = .next t ∧ t.phase = phasePace ∧ t.rem = 0#17)
    ∧ ∀ k, 0 < k → k < 100000 → ∃ u, run k s = .next u ∧ atBoundary u = false

/-- The offsets of R75 in the tick machine: from any boundary tick, with no reset between, the header space, each data bit's
burst and the footer's burst are entered at the ticks R75 gives. -/
def Obligations.PacketOffsets : Prop :=
  ∀ s : State, atBoundary s = true → noResetWithin 100000 s →
    let cmd := if s.mbxV then s.mbx else s.cmd
    (∃ t, run 2002 s = .next t ∧ t.phase = phaseHspace ∧ t.rem = 1998#17)
    ∧ (∀ i : Nat, i < 32 →
        ∃ t, run (4000 + 600 * i + 400 * onesAmong cmd (bitIndexes.take i)) s = .next t
          ∧ t.phase = phaseBmark ∧ t.bitidx = BitVec.ofNat 5 i ∧ t.cyc = 0#7 ∧ t.half = false ∧ t.rem = 13#17)
    ∧ ∃ t, run (23200 + 400 * popcount cmd) s = .next t
        ∧ t.phase = phaseFmark ∧ t.cyc = 0#7 ∧ t.half = false ∧ t.rem = 13#17

/-- R105 on the record (notes/assumptions/10.md): from any boundary tick, with no reset between, the output of the packet's
ticks is `Packet(CMD)` of the command the boundary polled, and it is low from there to the next boundary. -/
def Obligations.PacketCycleWaveform : Prop :=
  ∀ s : State, atBoundary s = true → noResetWithin 100000 s →
    let cmd := if s.mbxV then s.mbx else s.cmd
    (∃ t, run (23512 + 400 * popcount cmd) s = .next t
      ∧ outputLevels t = outputLevels s ++ levels (packet cmd))
    ∧ ∃ t, run 100000 s = .next t
      ∧ outputLevels t
          = outputLevels s ++ levels (packet cmd) ++ List.replicate (76488 - 400 * popcount cmd) false

/-- R105 on the output port itself: from any boundary tick, with no reset between, `ir_out` in tick `k` of the packet cycle is
tick `k` of `Packet(CMD)`, `CMD` as the boundary polled it, and 0 after the packet's last tick. -/
def Obligations.OutputTraceIsPacket : Prop :=
  ∀ s : State, atBoundary s = true → noResetWithin 100000 s →
    let cmd := if s.mbxV then s.mbx else s.cmd
    ∀ k : Nat, k < 100000 → ∃ t, run (k + 1) s = .next t ∧ t.irOut = (levels (packet cmd)).getD k false

/-- The tick machine against the operation (R68, R59, R72, R83): from any boundary tick, with no reset between, after the
packet's ticks the record of the output, the statistics, `ELAPSED` and what the bit loop and the bursts leave are those
of `TRANSMIT` of the polled command, and the wait has been entered with the residual. -/
def Obligations.TicksRefineTransmit : Prop :=
  ∀ s : State, atBoundary s = true → noResetWithin 100000 s →
    let cmd := if s.mbxV then s.mbx else s.cmd
    ∃ t u, run (23512 + 400 * popcount cmd) s = .next t ∧ exec (.transmit cmd) s = .next u
      ∧ t.wave = u.wave ∧ t.irOut = u.irOut ∧ t.ones = u.ones ∧ t.zeros = u.zeros ∧ t.elapsed = u.elapsed
      ∧ t.bitidx = u.bitidx ∧ t.cyc = u.cyc ∧ t.half = u.half ∧ t.cmd = cmd
      ∧ t.phase = phasePace ∧ t.rem.toNat = 76488 - 400 * popcount cmd ∧ t.resid.toInt = 76488 - 400 * popcount cmd
end

