-- ==== Sys2Proof/Laws/Decode.lean ====
section
/-! SUPPORT. The bits of the packed words of Decode.lean. -/

namespace Sys2Proof

/-- The bits of four packed bytes: the last byte lies lowest. -/
theorem getLsbD_packWord (a b c d : Byte) (j : Nat) :
    (packWord a b c d).getLsbD j =
      if j < 8 then d.getLsbD j else if j < 16 then c.getLsbD (j - 8)
      else if j < 24 then b.getLsbD (j - 16) else a.getLsbD (j - 24) := by
  change (a ++ b ++ c ++ d : BitVec (8 + 8 + 8 + 8)).getLsbD j = _
  simp only [BitVec.getLsbD_append, Nat.sub_sub]
  split_ifs <;> first | rfl | (exfalso; omega)

/-- The bits of the throttle byte: the channel flag is bit 7. -/
theorem getLsbD_throttleByte (c : Bool) (t : BitVec 7) (j : Nat) :
    (throttleByte c t).getLsbD j = if j < 7 then t.getLsbD j else (decide (j = 7) && c) := by
  change (BitVec.ofBool c ++ t : BitVec (1 + 7)).getLsbD j = _
  rw [BitVec.getLsbD_append]
  split_ifs with h
  · rfl
  · by_cases h7 : j = 7
    · subst h7; cases c <;> rfl
    · rw [BitVec.getLsbD_of_ge _ _ (by omega)]; simp [h7]

@[simp] theorem msb_throttleByte (c : Bool) (t : BitVec 7) : (throttleByte c t).msb = c := by
  rw [BitVec.msb_eq_getLsbD_last, getLsbD_throttleByte]; simp

@[simp] theorem setWidth_throttleByte (c : Bool) (t : BitVec 7) : (throttleByte c t).setWidth 7 = t := by
  apply BitVec.eq_of_getLsbD_eq
  intro j hj
  rw [BitVec.getLsbD_setWidth, getLsbD_throttleByte]
  simp [hj]

end Sys2Proof
end

