-- ==== Sys2Proof/Laws/State.lean ====
section
/-! SUPPORT. The fields of the state after each plain update of Machine/Ops.lean, one lemma a field. -/

namespace Sys2Proof.Machine

/-! ### beginTick -/

@[simp] theorem beginTick_cmd (s : State) : (beginTick s).cmd = s.cmd := rfl
@[simp] theorem beginTick_mbx (s : State) : (beginTick s).mbx = s.mbx := rfl
@[simp] theorem beginTick_mbxV (s : State) : (beginTick s).mbxV = s.mbxV := rfl
@[simp] theorem beginTick_ones (s : State) : (beginTick s).ones = s.ones := rfl
@[simp] theorem beginTick_zeros (s : State) : (beginTick s).zeros = s.zeros := rfl
@[simp] theorem beginTick_bitidx (s : State) : (beginTick s).bitidx = s.bitidx := rfl
@[simp] theorem beginTick_phase (s : State) : (beginTick s).phase = s.phase := rfl
@[simp] theorem beginTick_cyc (s : State) : (beginTick s).cyc = s.cyc := rfl
@[simp] theorem beginTick_half (s : State) : (beginTick s).half = s.half := rfl
@[simp] theorem beginTick_rem (s : State) : (beginTick s).rem = s.rem := rfl
@[simp] theorem beginTick_elapsed (s : State) : (beginTick s).elapsed = s.elapsed := rfl
@[simp] theorem beginTick_resid (s : State) : (beginTick s).resid = s.resid := rfl
@[simp] theorem beginTick_ovrCnt (s : State) : (beginTick s).ovrCnt = s.ovrCnt := rfl
@[simp] theorem beginTick_irOut (s : State) : (beginTick s).irOut = s.irOut := rfl
@[simp] theorem beginTick_ready (s : State) : (beginTick s).ready = false := rfl
@[simp] theorem beginTick_ovrCount (s : State) : (beginTick s).ovrCount = s.ovrCnt := rfl
@[simp] theorem beginTick_updPort (s : State) : (beginTick s).updPort = s.updPort := rfl
@[simp] theorem beginTick_held (s : State) : (beginTick s).held = s.held := rfl
@[simp] theorem beginTick_hostTx (s : State) : (beginTick s).hostTx = s.hostTx := rfl
@[simp] theorem beginTick_inputs (s : State) : (beginTick s).inputs = s.inputs := rfl
@[simp] theorem beginTick_wave (s : State) : (beginTick s).wave = s.wave := rfl
@[simp] theorem beginTick_draws (s : State) : (beginTick s).draws = s.draws := rfl

/-! ### burstEntry -/

@[simp] theorem burstEntry_cmd (s : State) : (burstEntry s).cmd = s.cmd := rfl
@[simp] theorem burstEntry_mbx (s : State) : (burstEntry s).mbx = s.mbx := rfl
@[simp] theorem burstEntry_mbxV (s : State) : (burstEntry s).mbxV = s.mbxV := rfl
@[simp] theorem burstEntry_ones (s : State) : (burstEntry s).ones = s.ones := rfl
@[simp] theorem burstEntry_zeros (s : State) : (burstEntry s).zeros = s.zeros := rfl
@[simp] theorem burstEntry_bitidx (s : State) : (burstEntry s).bitidx = s.bitidx := rfl
@[simp] theorem burstEntry_phase (s : State) : (burstEntry s).phase = s.phase := rfl
@[simp] theorem burstEntry_cyc (s : State) : (burstEntry s).cyc = 0#7 := rfl
@[simp] theorem burstEntry_half (s : State) : (burstEntry s).half = false := rfl
@[simp] theorem burstEntry_rem (s : State) : (burstEntry s).rem = 13#17 := rfl
@[simp] theorem burstEntry_elapsed (s : State) : (burstEntry s).elapsed = s.elapsed := rfl
@[simp] theorem burstEntry_resid (s : State) : (burstEntry s).resid = s.resid := rfl
@[simp] theorem burstEntry_ovrCnt (s : State) : (burstEntry s).ovrCnt = s.ovrCnt := rfl
@[simp] theorem burstEntry_irOut (s : State) : (burstEntry s).irOut = s.irOut := rfl
@[simp] theorem burstEntry_ready (s : State) : (burstEntry s).ready = s.ready := rfl
@[simp] theorem burstEntry_ovrCount (s : State) : (burstEntry s).ovrCount = s.ovrCount := rfl
@[simp] theorem burstEntry_updPort (s : State) : (burstEntry s).updPort = s.updPort := rfl
@[simp] theorem burstEntry_held (s : State) : (burstEntry s).held = s.held := rfl
@[simp] theorem burstEntry_hostTx (s : State) : (burstEntry s).hostTx = s.hostTx := rfl
@[simp] theorem burstEntry_inputs (s : State) : (burstEntry s).inputs = s.inputs := rfl
@[simp] theorem burstEntry_wave (s : State) : (burstEntry s).wave = s.wave := rfl
@[simp] theorem burstEntry_draws (s : State) : (burstEntry s).draws = s.draws := rfl

/-! ### clearStatistics -/

@[simp] theorem clearStatistics_cmd (s : State) : (clearStatistics s).cmd = s.cmd := rfl
@[simp] theorem clearStatistics_mbx (s : State) : (clearStatistics s).mbx = s.mbx := rfl
@[simp] theorem clearStatistics_mbxV (s : State) : (clearStatistics s).mbxV = s.mbxV := rfl
@[simp] theorem clearStatistics_ones (s : State) : (clearStatistics s).ones = 0#6 := rfl
@[simp] theorem clearStatistics_zeros (s : State) : (clearStatistics s).zeros = 0#6 := rfl
@[simp] theorem clearStatistics_bitidx (s : State) : (clearStatistics s).bitidx = 0#5 := rfl
@[simp] theorem clearStatistics_phase (s : State) : (clearStatistics s).phase = s.phase := rfl
@[simp] theorem clearStatistics_cyc (s : State) : (clearStatistics s).cyc = s.cyc := rfl
@[simp] theorem clearStatistics_half (s : State) : (clearStatistics s).half = s.half := rfl
@[simp] theorem clearStatistics_rem (s : State) : (clearStatistics s).rem = s.rem := rfl
@[simp] theorem clearStatistics_elapsed (s : State) : (clearStatistics s).elapsed = s.elapsed := rfl
@[simp] theorem clearStatistics_resid (s : State) : (clearStatistics s).resid = s.resid := rfl
@[simp] theorem clearStatistics_ovrCnt (s : State) : (clearStatistics s).ovrCnt = s.ovrCnt := rfl
@[simp] theorem clearStatistics_irOut (s : State) : (clearStatistics s).irOut = s.irOut := rfl
@[simp] theorem clearStatistics_ready (s : State) : (clearStatistics s).ready = s.ready := rfl
@[simp] theorem clearStatistics_ovrCount (s : State) : (clearStatistics s).ovrCount = s.ovrCount := rfl
@[simp] theorem clearStatistics_updPort (s : State) : (clearStatistics s).updPort = s.updPort := rfl
@[simp] theorem clearStatistics_held (s : State) : (clearStatistics s).held = s.held := rfl
@[simp] theorem clearStatistics_hostTx (s : State) : (clearStatistics s).hostTx = s.hostTx := rfl
@[simp] theorem clearStatistics_inputs (s : State) : (clearStatistics s).inputs = s.inputs := rfl
@[simp] theorem clearStatistics_wave (s : State) : (clearStatistics s).wave = s.wave := rfl
@[simp] theorem clearStatistics_draws (s : State) : (clearStatistics s).draws = s.draws := rfl

/-! ### signalReady -/

@[simp] theorem signalReady_cmd (s : State) : (signalReady s).cmd = s.cmd := rfl
@[simp] theorem signalReady_mbx (s : State) : (signalReady s).mbx = s.mbx := rfl
@[simp] theorem signalReady_mbxV (s : State) : (signalReady s).mbxV = s.mbxV := rfl
@[simp] theorem signalReady_ones (s : State) : (signalReady s).ones = s.ones := rfl
@[simp] theorem signalReady_zeros (s : State) : (signalReady s).zeros = s.zeros := rfl
@[simp] theorem signalReady_bitidx (s : State) : (signalReady s).bitidx = s.bitidx := rfl
@[simp] theorem signalReady_phase (s : State) : (signalReady s).phase = s.phase := rfl
@[simp] theorem signalReady_cyc (s : State) : (signalReady s).cyc = s.cyc := rfl
@[simp] theorem signalReady_half (s : State) : (signalReady s).half = s.half := rfl
@[simp] theorem signalReady_rem (s : State) : (signalReady s).rem = s.rem := rfl
@[simp] theorem signalReady_elapsed (s : State) : (signalReady s).elapsed = s.elapsed := rfl
@[simp] theorem signalReady_resid (s : State) : (signalReady s).resid = s.resid := rfl
@[simp] theorem signalReady_ovrCnt (s : State) : (signalReady s).ovrCnt = s.ovrCnt := rfl
@[simp] theorem signalReady_irOut (s : State) : (signalReady s).irOut = s.irOut := rfl
@[simp] theorem signalReady_ready (s : State) : (signalReady s).ready = true := rfl
@[simp] theorem signalReady_ovrCount (s : State) : (signalReady s).ovrCount = s.ovrCount := rfl
@[simp] theorem signalReady_updPort (s : State) : (signalReady s).updPort = s.updPort := rfl
@[simp] theorem signalReady_held (s : State) : (signalReady s).held = s.held := rfl
@[simp] theorem signalReady_hostTx (s : State) : (signalReady s).hostTx = s.hostTx := rfl
@[simp] theorem signalReady_inputs (s : State) : (signalReady s).inputs = s.inputs := rfl
@[simp] theorem signalReady_wave (s : State) : (signalReady s).wave = s.wave := rfl
@[simp] theorem signalReady_draws (s : State) : (signalReady s).draws = s.draws := rfl

/-! ### mailboxWrite -/

@[simp] theorem mailboxWrite_cmd (w : Word) (s : State) : (mailboxWrite w s).cmd = s.cmd := rfl
@[simp] theorem mailboxWrite_mbx (w : Word) (s : State) : (mailboxWrite w s).mbx = w := rfl
@[simp] theorem mailboxWrite_mbxV (w : Word) (s : State) : (mailboxWrite w s).mbxV = true := rfl
@[simp] theorem mailboxWrite_ones (w : Word) (s : State) : (mailboxWrite w s).ones = s.ones := rfl
@[simp] theorem mailboxWrite_zeros (w : Word) (s : State) : (mailboxWrite w s).zeros = s.zeros := rfl
@[simp] theorem mailboxWrite_bitidx (w : Word) (s : State) : (mailboxWrite w s).bitidx = s.bitidx := rfl
@[simp] theorem mailboxWrite_phase (w : Word) (s : State) : (mailboxWrite w s).phase = s.phase := rfl
@[simp] theorem mailboxWrite_cyc (w : Word) (s : State) : (mailboxWrite w s).cyc = s.cyc := rfl
@[simp] theorem mailboxWrite_half (w : Word) (s : State) : (mailboxWrite w s).half = s.half := rfl
@[simp] theorem mailboxWrite_rem (w : Word) (s : State) : (mailboxWrite w s).rem = s.rem := rfl
@[simp] theorem mailboxWrite_elapsed (w : Word) (s : State) : (mailboxWrite w s).elapsed = s.elapsed := rfl
@[simp] theorem mailboxWrite_resid (w : Word) (s : State) : (mailboxWrite w s).resid = s.resid := rfl
@[simp] theorem mailboxWrite_ovrCnt (w : Word) (s : State) : (mailboxWrite w s).ovrCnt = s.ovrCnt := rfl
@[simp] theorem mailboxWrite_irOut (w : Word) (s : State) : (mailboxWrite w s).irOut = s.irOut := rfl
@[simp] theorem mailboxWrite_ready (w : Word) (s : State) : (mailboxWrite w s).ready = s.ready := rfl
@[simp] theorem mailboxWrite_ovrCount (w : Word) (s : State) : (mailboxWrite w s).ovrCount = s.ovrCount := rfl
@[simp] theorem mailboxWrite_updPort (w : Word) (s : State) : (mailboxWrite w s).updPort = s.updPort := rfl
@[simp] theorem mailboxWrite_held (w : Word) (s : State) : (mailboxWrite w s).held = s.held := rfl
@[simp] theorem mailboxWrite_hostTx (w : Word) (s : State) : (mailboxWrite w s).hostTx = s.hostTx := rfl
@[simp] theorem mailboxWrite_inputs (w : Word) (s : State) : (mailboxWrite w s).inputs = s.inputs := rfl
@[simp] theorem mailboxWrite_wave (w : Word) (s : State) : (mailboxWrite w s).wave = s.wave := rfl
@[simp] theorem mailboxWrite_draws (w : Word) (s : State) : (mailboxWrite w s).draws = s.draws := rfl

/-! ### deliver -/

@[simp] theorem deliver_cmd (w : Word) (s : State) : (deliver w s).cmd = s.cmd := rfl
@[simp] theorem deliver_mbx (w : Word) (s : State) : (deliver w s).mbx = w := rfl
@[simp] theorem deliver_mbxV (w : Word) (s : State) : (deliver w s).mbxV = true := rfl
@[simp] theorem deliver_ones (w : Word) (s : State) : (deliver w s).ones = s.ones := rfl
@[simp] theorem deliver_zeros (w : Word) (s : State) : (deliver w s).zeros = s.zeros := rfl
@[simp] theorem deliver_bitidx (w : Word) (s : State) : (deliver w s).bitidx = s.bitidx := rfl
@[simp] theorem deliver_phase (w : Word) (s : State) : (deliver w s).phase = s.phase := rfl
@[simp] theorem deliver_cyc (w : Word) (s : State) : (deliver w s).cyc = s.cyc := rfl
@[simp] theorem deliver_half (w : Word) (s : State) : (deliver w s).half = s.half := rfl
@[simp] theorem deliver_rem (w : Word) (s : State) : (deliver w s).rem = s.rem := rfl
@[simp] theorem deliver_elapsed (w : Word) (s : State) : (deliver w s).elapsed = s.elapsed := rfl
@[simp] theorem deliver_resid (w : Word) (s : State) : (deliver w s).resid = s.resid := rfl
@[simp] theorem deliver_ovrCnt (w : Word) (s : State) : (deliver w s).ovrCnt = s.ovrCnt := rfl
@[simp] theorem deliver_irOut (w : Word) (s : State) : (deliver w s).irOut = s.irOut := rfl
@[simp] theorem deliver_ready (w : Word) (s : State) : (deliver w s).ready = s.ready := rfl
@[simp] theorem deliver_ovrCount (w : Word) (s : State) : (deliver w s).ovrCount = s.ovrCount := rfl
@[simp] theorem deliver_updPort (w : Word) (s : State) : (deliver w s).updPort = some w := rfl
@[simp] theorem deliver_held (w : Word) (s : State) : (deliver w s).held = s.held := rfl
@[simp] theorem deliver_hostTx (w : Word) (s : State) : (deliver w s).hostTx = s.hostTx := rfl
@[simp] theorem deliver_inputs (w : Word) (s : State) : (deliver w s).inputs = s.inputs := rfl
@[simp] theorem deliver_wave (w : Word) (s : State) : (deliver w s).wave = s.wave := rfl
@[simp] theorem deliver_draws (w : Word) (s : State) : (deliver w s).draws = s.draws := rfl

/-! ### sendReadyByte -/

@[simp] theorem sendReadyByte_cmd (s : State) : (sendReadyByte s).cmd = s.cmd := rfl
@[simp] theorem sendReadyByte_mbx (s : State) : (sendReadyByte s).mbx = s.mbx := rfl
@[simp] theorem sendReadyByte_mbxV (s : State) : (sendReadyByte s).mbxV = s.mbxV := rfl
@[simp] theorem sendReadyByte_ones (s : State) : (sendReadyByte s).ones = s.ones := rfl
@[simp] theorem sendReadyByte_zeros (s : State) : (sendReadyByte s).zeros = s.zeros := rfl
@[simp] theorem sendReadyByte_bitidx (s : State) : (sendReadyByte s).bitidx = s.bitidx := rfl
@[simp] theorem sendReadyByte_phase (s : State) : (sendReadyByte s).phase = s.phase := rfl
@[simp] theorem sendReadyByte_cyc (s : State) : (sendReadyByte s).cyc = s.cyc := rfl
@[simp] theorem sendReadyByte_half (s : State) : (sendReadyByte s).half = s.half := rfl
@[simp] theorem sendReadyByte_rem (s : State) : (sendReadyByte s).rem = s.rem := rfl
@[simp] theorem sendReadyByte_elapsed (s : State) : (sendReadyByte s).elapsed = s.elapsed := rfl
@[simp] theorem sendReadyByte_resid (s : State) : (sendReadyByte s).resid = s.resid := rfl
@[simp] theorem sendReadyByte_ovrCnt (s : State) : (sendReadyByte s).ovrCnt = s.ovrCnt := rfl
@[simp] theorem sendReadyByte_irOut (s : State) : (sendReadyByte s).irOut = s.irOut := rfl
@[simp] theorem sendReadyByte_ready (s : State) : (sendReadyByte s).ready = s.ready := rfl
@[simp] theorem sendReadyByte_ovrCount (s : State) : (sendReadyByte s).ovrCount = s.ovrCount := rfl
@[simp] theorem sendReadyByte_updPort (s : State) : (sendReadyByte s).updPort = s.updPort := rfl
@[simp] theorem sendReadyByte_held (s : State) : (sendReadyByte s).held = s.held := rfl
@[simp] theorem sendReadyByte_hostTx (s : State) : (sendReadyByte s).hostTx = some 0x81#8 := rfl
@[simp] theorem sendReadyByte_inputs (s : State) : (sendReadyByte s).inputs = s.inputs := rfl
@[simp] theorem sendReadyByte_wave (s : State) : (sendReadyByte s).wave = s.wave := rfl
@[simp] theorem sendReadyByte_draws (s : State) : (sendReadyByte s).draws = s.draws := rfl

/-! ### openTick -/

@[simp] theorem openTick_cmd (s : State) : (openTick s).cmd = s.cmd := rfl
@[simp] theorem openTick_mbx (s : State) : (openTick s).mbx = s.mbx := rfl
@[simp] theorem openTick_mbxV (s : State) : (openTick s).mbxV = s.mbxV := rfl
@[simp] theorem openTick_ones (s : State) : (openTick s).ones = s.ones := rfl
@[simp] theorem openTick_zeros (s : State) : (openTick s).zeros = s.zeros := rfl
@[simp] theorem openTick_bitidx (s : State) : (openTick s).bitidx = s.bitidx := rfl
@[simp] theorem openTick_phase (s : State) : (openTick s).phase = s.phase := rfl
@[simp] theorem openTick_cyc (s : State) : (openTick s).cyc = s.cyc := rfl
@[simp] theorem openTick_half (s : State) : (openTick s).half = s.half := rfl
@[simp] theorem openTick_rem (s : State) : (openTick s).rem = s.rem := rfl
@[simp] theorem openTick_elapsed (s : State) : (openTick s).elapsed = s.elapsed := rfl
@[simp] theorem openTick_resid (s : State) : (openTick s).resid = s.resid := rfl
@[simp] theorem openTick_ovrCnt (s : State) : (openTick s).ovrCnt = s.ovrCnt := rfl
@[simp] theorem openTick_irOut (s : State) : (openTick s).irOut = s.irOut := rfl
@[simp] theorem openTick_ready (s : State) : (openTick s).ready = s.ready := rfl
@[simp] theorem openTick_ovrCount (s : State) : (openTick s).ovrCount = s.ovrCount := rfl
@[simp] theorem openTick_updPort (s : State) : (openTick s).updPort = none := rfl
@[simp] theorem openTick_held (s : State) : (openTick s).held = s.held := rfl
@[simp] theorem openTick_hostTx (s : State) : (openTick s).hostTx = none := rfl
@[simp] theorem openTick_inputs (s : State) : (openTick s).inputs = s.inputs.tail := rfl
@[simp] theorem openTick_wave (s : State) : (openTick s).wave = s.wave := rfl
@[simp] theorem openTick_draws (s : State) : (openTick s).draws = s.draws := rfl

/-! ### The phase codes as numerals -/

@[simp] theorem phaseStart_eq : phaseStart = 0#3 := rfl
@[simp] theorem phaseHmark_eq : phaseHmark = 1#3 := rfl
@[simp] theorem phaseHspace_eq : phaseHspace = 2#3 := rfl
@[simp] theorem phaseBmark_eq : phaseBmark = 3#3 := rfl
@[simp] theorem phaseBspace_eq : phaseBspace = 4#3 := rfl
@[simp] theorem phaseFmark_eq : phaseFmark = 5#3 := rfl
@[simp] theorem phasePace_eq : phasePace = 6#3 := rfl
@[simp] theorem phaseReserved_eq : phaseReserved = 7#3 := rfl

end Sys2Proof.Machine
end

