-- ==== Sys2Proof/Laws/Frames.lean ====
section
/-! SUPPORT. What each branching operation of Machine/Ops.lean leaves unchanged, one lemma a field. -/

namespace Sys2Proof.Machine

/-! ### emit -/

@[simp] theorem emit_cmd (l : Bool) (n : Nat) (s : State) : (emit l n s).cmd = s.cmd := by unfold emit; split <;> rfl
@[simp] theorem emit_mbx (l : Bool) (n : Nat) (s : State) : (emit l n s).mbx = s.mbx := by unfold emit; split <;> rfl
@[simp] theorem emit_mbxV (l : Bool) (n : Nat) (s : State) : (emit l n s).mbxV = s.mbxV := by unfold emit; split <;> rfl
@[simp] theorem emit_ones (l : Bool) (n : Nat) (s : State) : (emit l n s).ones = s.ones := by unfold emit; split <;> rfl
@[simp] theorem emit_zeros (l : Bool) (n : Nat) (s : State) : (emit l n s).zeros = s.zeros := by unfold emit; split <;> rfl
@[simp] theorem emit_bitidx (l : Bool) (n : Nat) (s : State) : (emit l n s).bitidx = s.bitidx := by unfold emit; split <;> rfl
@[simp] theorem emit_phase (l : Bool) (n : Nat) (s : State) : (emit l n s).phase = s.phase := by unfold emit; split <;> rfl
@[simp] theorem emit_cyc (l : Bool) (n : Nat) (s : State) : (emit l n s).cyc = s.cyc := by unfold emit; split <;> rfl
@[simp] theorem emit_half (l : Bool) (n : Nat) (s : State) : (emit l n s).half = s.half := by unfold emit; split <;> rfl
@[simp] theorem emit_rem (l : Bool) (n : Nat) (s : State) : (emit l n s).rem = s.rem := by unfold emit; split <;> rfl
@[simp] theorem emit_elapsed (l : Bool) (n : Nat) (s : State) : (emit l n s).elapsed = s.elapsed := by unfold emit; split <;> rfl
@[simp] theorem emit_resid (l : Bool) (n : Nat) (s : State) : (emit l n s).resid = s.resid := by unfold emit; split <;> rfl
@[simp] theorem emit_ovrCnt (l : Bool) (n : Nat) (s : State) : (emit l n s).ovrCnt = s.ovrCnt := by unfold emit; split <;> rfl
@[simp] theorem emit_ready (l : Bool) (n : Nat) (s : State) : (emit l n s).ready = s.ready := by unfold emit; split <;> rfl
@[simp] theorem emit_ovrCount (l : Bool) (n : Nat) (s : State) : (emit l n s).ovrCount = s.ovrCount := by unfold emit; split <;> rfl
@[simp] theorem emit_updPort (l : Bool) (n : Nat) (s : State) : (emit l n s).updPort = s.updPort := by unfold emit; split <;> rfl
@[simp] theorem emit_held (l : Bool) (n : Nat) (s : State) : (emit l n s).held = s.held := by unfold emit; split <;> rfl
@[simp] theorem emit_hostTx (l : Bool) (n : Nat) (s : State) : (emit l n s).hostTx = s.hostTx := by unfold emit; split <;> rfl
@[simp] theorem emit_inputs (l : Bool) (n : Nat) (s : State) : (emit l n s).inputs = s.inputs := by unfold emit; split <;> rfl
@[simp] theorem emit_draws (l : Bool) (n : Nat) (s : State) : (emit l n s).draws = s.draws := by unfold emit; split <;> rfl

/-! ### decRem -/

@[simp] theorem decRem_cmd (s : State) : (decRem s).cmd = s.cmd := by unfold decRem; split <;> rfl
@[simp] theorem decRem_mbx (s : State) : (decRem s).mbx = s.mbx := by unfold decRem; split <;> rfl
@[simp] theorem decRem_mbxV (s : State) : (decRem s).mbxV = s.mbxV := by unfold decRem; split <;> rfl
@[simp] theorem decRem_ones (s : State) : (decRem s).ones = s.ones := by unfold decRem; split <;> rfl
@[simp] theorem decRem_zeros (s : State) : (decRem s).zeros = s.zeros := by unfold decRem; split <;> rfl
@[simp] theorem decRem_bitidx (s : State) : (decRem s).bitidx = s.bitidx := by unfold decRem; split <;> rfl
@[simp] theorem decRem_phase (s : State) : (decRem s).phase = s.phase := by unfold decRem; split <;> rfl
@[simp] theorem decRem_cyc (s : State) : (decRem s).cyc = s.cyc := by unfold decRem; split <;> rfl
@[simp] theorem decRem_half (s : State) : (decRem s).half = s.half := by unfold decRem; split <;> rfl
@[simp] theorem decRem_elapsed (s : State) : (decRem s).elapsed = s.elapsed := by unfold decRem; split <;> rfl
@[simp] theorem decRem_resid (s : State) : (decRem s).resid = s.resid := by unfold decRem; split <;> rfl
@[simp] theorem decRem_ovrCnt (s : State) : (decRem s).ovrCnt = s.ovrCnt := by unfold decRem; split <;> rfl
@[simp] theorem decRem_irOut (s : State) : (decRem s).irOut = s.irOut := by unfold decRem; split <;> rfl
@[simp] theorem decRem_ready (s : State) : (decRem s).ready = s.ready := by unfold decRem; split <;> rfl
@[simp] theorem decRem_ovrCount (s : State) : (decRem s).ovrCount = s.ovrCount := by unfold decRem; split <;> rfl
@[simp] theorem decRem_updPort (s : State) : (decRem s).updPort = s.updPort := by unfold decRem; split <;> rfl
@[simp] theorem decRem_held (s : State) : (decRem s).held = s.held := by unfold decRem; split <;> rfl
@[simp] theorem decRem_hostTx (s : State) : (decRem s).hostTx = s.hostTx := by unfold decRem; split <;> rfl
@[simp] theorem decRem_inputs (s : State) : (decRem s).inputs = s.inputs := by unfold decRem; split <;> rfl
@[simp] theorem decRem_wave (s : State) : (decRem s).wave = s.wave := by unfold decRem; split <;> rfl

/-! ### pollUpdate -/

@[simp] theorem pollUpdate_mbx (s : State) : (pollUpdate s).mbx = s.mbx := by unfold pollUpdate; split <;> rfl
@[simp] theorem pollUpdate_ones (s : State) : (pollUpdate s).ones = s.ones := by unfold pollUpdate; split <;> rfl
@[simp] theorem pollUpdate_zeros (s : State) : (pollUpdate s).zeros = s.zeros := by unfold pollUpdate; split <;> rfl
@[simp] theorem pollUpdate_bitidx (s : State) : (pollUpdate s).bitidx = s.bitidx := by unfold pollUpdate; split <;> rfl
@[simp] theorem pollUpdate_phase (s : State) : (pollUpdate s).phase = s.phase := by unfold pollUpdate; split <;> rfl
@[simp] theorem pollUpdate_cyc (s : State) : (pollUpdate s).cyc = s.cyc := by unfold pollUpdate; split <;> rfl
@[simp] theorem pollUpdate_half (s : State) : (pollUpdate s).half = s.half := by unfold pollUpdate; split <;> rfl
@[simp] theorem pollUpdate_rem (s : State) : (pollUpdate s).rem = s.rem := by unfold pollUpdate; split <;> rfl
@[simp] theorem pollUpdate_elapsed (s : State) : (pollUpdate s).elapsed = s.elapsed := by unfold pollUpdate; split <;> rfl
@[simp] theorem pollUpdate_resid (s : State) : (pollUpdate s).resid = s.resid := by unfold pollUpdate; split <;> rfl
@[simp] theorem pollUpdate_ovrCnt (s : State) : (pollUpdate s).ovrCnt = s.ovrCnt := by unfold pollUpdate; split <;> rfl
@[simp] theorem pollUpdate_irOut (s : State) : (pollUpdate s).irOut = s.irOut := by unfold pollUpdate; split <;> rfl
@[simp] theorem pollUpdate_ready (s : State) : (pollUpdate s).ready = s.ready := by unfold pollUpdate; split <;> rfl
@[simp] theorem pollUpdate_ovrCount (s : State) : (pollUpdate s).ovrCount = s.ovrCount := by unfold pollUpdate; split <;> rfl
@[simp] theorem pollUpdate_updPort (s : State) : (pollUpdate s).updPort = s.updPort := by unfold pollUpdate; split <;> rfl
@[simp] theorem pollUpdate_held (s : State) : (pollUpdate s).held = s.held := by unfold pollUpdate; split <;> rfl
@[simp] theorem pollUpdate_hostTx (s : State) : (pollUpdate s).hostTx = s.hostTx := by unfold pollUpdate; split <;> rfl
@[simp] theorem pollUpdate_inputs (s : State) : (pollUpdate s).inputs = s.inputs := by unfold pollUpdate; split <;> rfl
@[simp] theorem pollUpdate_wave (s : State) : (pollUpdate s).wave = s.wave := by unfold pollUpdate; split <;> rfl
@[simp] theorem pollUpdate_draws (s : State) : (pollUpdate s).draws = s.draws := by unfold pollUpdate; split <;> rfl

/-! ### tally -/

@[simp] theorem tally_cmd (b : Bool) (s : State) : (tally b s).cmd = s.cmd := by unfold tally; split <;> rfl
@[simp] theorem tally_mbx (b : Bool) (s : State) : (tally b s).mbx = s.mbx := by unfold tally; split <;> rfl
@[simp] theorem tally_mbxV (b : Bool) (s : State) : (tally b s).mbxV = s.mbxV := by unfold tally; split <;> rfl
@[simp] theorem tally_bitidx (b : Bool) (s : State) : (tally b s).bitidx = s.bitidx := by unfold tally; split <;> rfl
@[simp] theorem tally_phase (b : Bool) (s : State) : (tally b s).phase = s.phase := by unfold tally; split <;> rfl
@[simp] theorem tally_cyc (b : Bool) (s : State) : (tally b s).cyc = s.cyc := by unfold tally; split <;> rfl
@[simp] theorem tally_half (b : Bool) (s : State) : (tally b s).half = s.half := by unfold tally; split <;> rfl
@[simp] theorem tally_rem (b : Bool) (s : State) : (tally b s).rem = s.rem := by unfold tally; split <;> rfl
@[simp] theorem tally_elapsed (b : Bool) (s : State) : (tally b s).elapsed = s.elapsed := by unfold tally; split <;> rfl
@[simp] theorem tally_resid (b : Bool) (s : State) : (tally b s).resid = s.resid := by unfold tally; split <;> rfl
@[simp] theorem tally_ovrCnt (b : Bool) (s : State) : (tally b s).ovrCnt = s.ovrCnt := by unfold tally; split <;> rfl
@[simp] theorem tally_irOut (b : Bool) (s : State) : (tally b s).irOut = s.irOut := by unfold tally; split <;> rfl
@[simp] theorem tally_ready (b : Bool) (s : State) : (tally b s).ready = s.ready := by unfold tally; split <;> rfl
@[simp] theorem tally_ovrCount (b : Bool) (s : State) : (tally b s).ovrCount = s.ovrCount := by unfold tally; split <;> rfl
@[simp] theorem tally_updPort (b : Bool) (s : State) : (tally b s).updPort = s.updPort := by unfold tally; split <;> rfl
@[simp] theorem tally_held (b : Bool) (s : State) : (tally b s).held = s.held := by unfold tally; split <;> rfl
@[simp] theorem tally_hostTx (b : Bool) (s : State) : (tally b s).hostTx = s.hostTx := by unfold tally; split <;> rfl
@[simp] theorem tally_inputs (b : Bool) (s : State) : (tally b s).inputs = s.inputs := by unfold tally; split <;> rfl
@[simp] theorem tally_wave (b : Bool) (s : State) : (tally b s).wave = s.wave := by unfold tally; split <;> rfl

/-! ### takeByte -/

@[simp] theorem takeByte_cmd (b : Byte) (s : State) : (takeByte b s).cmd = s.cmd := by unfold takeByte; split <;> rfl
@[simp] theorem takeByte_ones (b : Byte) (s : State) : (takeByte b s).ones = s.ones := by unfold takeByte; split <;> rfl
@[simp] theorem takeByte_zeros (b : Byte) (s : State) : (takeByte b s).zeros = s.zeros := by unfold takeByte; split <;> rfl
@[simp] theorem takeByte_bitidx (b : Byte) (s : State) : (takeByte b s).bitidx = s.bitidx := by unfold takeByte; split <;> rfl
@[simp] theorem takeByte_phase (b : Byte) (s : State) : (takeByte b s).phase = s.phase := by unfold takeByte; split <;> rfl
@[simp] theorem takeByte_cyc (b : Byte) (s : State) : (takeByte b s).cyc = s.cyc := by unfold takeByte; split <;> rfl
@[simp] theorem takeByte_half (b : Byte) (s : State) : (takeByte b s).half = s.half := by unfold takeByte; split <;> rfl
@[simp] theorem takeByte_rem (b : Byte) (s : State) : (takeByte b s).rem = s.rem := by unfold takeByte; split <;> rfl
@[simp] theorem takeByte_elapsed (b : Byte) (s : State) : (takeByte b s).elapsed = s.elapsed := by unfold takeByte; split <;> rfl
@[simp] theorem takeByte_resid (b : Byte) (s : State) : (takeByte b s).resid = s.resid := by unfold takeByte; split <;> rfl
@[simp] theorem takeByte_ovrCnt (b : Byte) (s : State) : (takeByte b s).ovrCnt = s.ovrCnt := by unfold takeByte; split <;> rfl
@[simp] theorem takeByte_irOut (b : Byte) (s : State) : (takeByte b s).irOut = s.irOut := by unfold takeByte; split <;> rfl
@[simp] theorem takeByte_ready (b : Byte) (s : State) : (takeByte b s).ready = s.ready := by unfold takeByte; split <;> rfl
@[simp] theorem takeByte_ovrCount (b : Byte) (s : State) : (takeByte b s).ovrCount = s.ovrCount := by unfold takeByte; split <;> rfl
@[simp] theorem takeByte_hostTx (b : Byte) (s : State) : (takeByte b s).hostTx = s.hostTx := by unfold takeByte; split <;> rfl
@[simp] theorem takeByte_inputs (b : Byte) (s : State) : (takeByte b s).inputs = s.inputs := by unfold takeByte; split <;> rfl
@[simp] theorem takeByte_wave (b : Byte) (s : State) : (takeByte b s).wave = s.wave := by unfold takeByte; split <;> rfl
@[simp] theorem takeByte_draws (b : Byte) (s : State) : (takeByte b s).draws = s.draws := by unfold takeByte; split <;> rfl

/-! ### arrive -/

@[simp] theorem arrive_cmd (a : Arrival) (s : State) : (arrive a s).cmd = s.cmd := by unfold arrive; split <;> simp
@[simp] theorem arrive_ones (a : Arrival) (s : State) : (arrive a s).ones = s.ones := by unfold arrive; split <;> simp
@[simp] theorem arrive_zeros (a : Arrival) (s : State) : (arrive a s).zeros = s.zeros := by unfold arrive; split <;> simp
@[simp] theorem arrive_bitidx (a : Arrival) (s : State) : (arrive a s).bitidx = s.bitidx := by unfold arrive; split <;> simp
@[simp] theorem arrive_phase (a : Arrival) (s : State) : (arrive a s).phase = s.phase := by unfold arrive; split <;> simp
@[simp] theorem arrive_cyc (a : Arrival) (s : State) : (arrive a s).cyc = s.cyc := by unfold arrive; split <;> simp
@[simp] theorem arrive_half (a : Arrival) (s : State) : (arrive a s).half = s.half := by unfold arrive; split <;> simp
@[simp] theorem arrive_rem (a : Arrival) (s : State) : (arrive a s).rem = s.rem := by unfold arrive; split <;> simp
@[simp] theorem arrive_elapsed (a : Arrival) (s : State) : (arrive a s).elapsed = s.elapsed := by unfold arrive; split <;> simp
@[simp] theorem arrive_resid (a : Arrival) (s : State) : (arrive a s).resid = s.resid := by unfold arrive; split <;> simp
@[simp] theorem arrive_ovrCnt (a : Arrival) (s : State) : (arrive a s).ovrCnt = s.ovrCnt := by unfold arrive; split <;> simp
@[simp] theorem arrive_irOut (a : Arrival) (s : State) : (arrive a s).irOut = s.irOut := by unfold arrive; split <;> simp
@[simp] theorem arrive_ready (a : Arrival) (s : State) : (arrive a s).ready = s.ready := by unfold arrive; split <;> simp
@[simp] theorem arrive_ovrCount (a : Arrival) (s : State) : (arrive a s).ovrCount = s.ovrCount := by unfold arrive; split <;> simp
@[simp] theorem arrive_hostTx (a : Arrival) (s : State) : (arrive a s).hostTx = s.hostTx := by unfold arrive; split <;> simp
@[simp] theorem arrive_inputs (a : Arrival) (s : State) : (arrive a s).inputs = s.inputs := by unfold arrive; split <;> simp
@[simp] theorem arrive_wave (a : Arrival) (s : State) : (arrive a s).wave = s.wave := by unfold arrive; split <;> simp
@[simp] theorem arrive_draws (a : Arrival) (s : State) : (arrive a s).draws = s.draws := by unfold arrive; split <;> simp

/-! ### adapterTick -/

@[simp] theorem adapterTick_cmd (a : Arrival) (s : State) : (adapterTick a s).cmd = s.cmd := by unfold adapterTick; split <;> simp
@[simp] theorem adapterTick_ones (a : Arrival) (s : State) : (adapterTick a s).ones = s.ones := by unfold adapterTick; split <;> simp
@[simp] theorem adapterTick_zeros (a : Arrival) (s : State) : (adapterTick a s).zeros = s.zeros := by unfold adapterTick; split <;> simp
@[simp] theorem adapterTick_bitidx (a : Arrival) (s : State) : (adapterTick a s).bitidx = s.bitidx := by unfold adapterTick; split <;> simp
@[simp] theorem adapterTick_phase (a : Arrival) (s : State) : (adapterTick a s).phase = s.phase := by unfold adapterTick; split <;> simp
@[simp] theorem adapterTick_cyc (a : Arrival) (s : State) : (adapterTick a s).cyc = s.cyc := by unfold adapterTick; split <;> simp
@[simp] theorem adapterTick_half (a : Arrival) (s : State) : (adapterTick a s).half = s.half := by unfold adapterTick; split <;> simp
@[simp] theorem adapterTick_rem (a : Arrival) (s : State) : (adapterTick a s).rem = s.rem := by unfold adapterTick; split <;> simp
@[simp] theorem adapterTick_elapsed (a : Arrival) (s : State) : (adapterTick a s).elapsed = s.elapsed := by unfold adapterTick; split <;> simp
@[simp] theorem adapterTick_resid (a : Arrival) (s : State) : (adapterTick a s).resid = s.resid := by unfold adapterTick; split <;> simp
@[simp] theorem adapterTick_ovrCnt (a : Arrival) (s : State) : (adapterTick a s).ovrCnt = s.ovrCnt := by unfold adapterTick; split <;> simp
@[simp] theorem adapterTick_irOut (a : Arrival) (s : State) : (adapterTick a s).irOut = s.irOut := by unfold adapterTick; split <;> simp
@[simp] theorem adapterTick_ready (a : Arrival) (s : State) : (adapterTick a s).ready = s.ready := by unfold adapterTick; split <;> simp
@[simp] theorem adapterTick_ovrCount (a : Arrival) (s : State) : (adapterTick a s).ovrCount = s.ovrCount := by unfold adapterTick; split <;> simp
@[simp] theorem adapterTick_inputs (a : Arrival) (s : State) : (adapterTick a s).inputs = s.inputs := by unfold adapterTick; split <;> simp
@[simp] theorem adapterTick_wave (a : Arrival) (s : State) : (adapterTick a s).wave = s.wave := by unfold adapterTick; split <;> simp
@[simp] theorem adapterTick_draws (a : Arrival) (s : State) : (adapterTick a s).draws = s.draws := by unfold adapterTick; split <;> simp

/-! ### boundary -/

@[simp] theorem boundary_mbx (s : State) : (boundary s).mbx = s.mbx := by simp [boundary]
@[simp] theorem boundary_elapsed (s : State) : (boundary s).elapsed = s.elapsed := by simp [boundary]
@[simp] theorem boundary_resid (s : State) : (boundary s).resid = s.resid := by simp [boundary]
@[simp] theorem boundary_ovrCnt (s : State) : (boundary s).ovrCnt = s.ovrCnt := by simp [boundary]
@[simp] theorem boundary_irOut (s : State) : (boundary s).irOut = s.irOut := by simp [boundary]
@[simp] theorem boundary_ready (s : State) : (boundary s).ready = s.ready := by simp [boundary]
@[simp] theorem boundary_ovrCount (s : State) : (boundary s).ovrCount = s.ovrCount := by simp [boundary]
@[simp] theorem boundary_updPort (s : State) : (boundary s).updPort = s.updPort := by simp [boundary]
@[simp] theorem boundary_held (s : State) : (boundary s).held = s.held := by simp [boundary]
@[simp] theorem boundary_hostTx (s : State) : (boundary s).hostTx = s.hostTx := by simp [boundary]
@[simp] theorem boundary_inputs (s : State) : (boundary s).inputs = s.inputs := by simp [boundary]
@[simp] theorem boundary_wave (s : State) : (boundary s).wave = s.wave := by simp [boundary]
@[simp] theorem boundary_draws (s : State) : (boundary s).draws = s.draws := by simp [boundary]

/-! ### paceEntryFor -/

@[simp] theorem paceEntryFor_cmd (n : Nat) (s : State) : (paceEntryFor n s).cmd = s.cmd := rfl
@[simp] theorem paceEntryFor_mbx (n : Nat) (s : State) : (paceEntryFor n s).mbx = s.mbx := rfl
@[simp] theorem paceEntryFor_mbxV (n : Nat) (s : State) : (paceEntryFor n s).mbxV = s.mbxV := rfl
@[simp] theorem paceEntryFor_ones (n : Nat) (s : State) : (paceEntryFor n s).ones = s.ones := rfl
@[simp] theorem paceEntryFor_zeros (n : Nat) (s : State) : (paceEntryFor n s).zeros = s.zeros := rfl
@[simp] theorem paceEntryFor_bitidx (n : Nat) (s : State) : (paceEntryFor n s).bitidx = s.bitidx := rfl
@[simp] theorem paceEntryFor_cyc (n : Nat) (s : State) : (paceEntryFor n s).cyc = s.cyc := rfl
@[simp] theorem paceEntryFor_half (n : Nat) (s : State) : (paceEntryFor n s).half = s.half := rfl
@[simp] theorem paceEntryFor_irOut (n : Nat) (s : State) : (paceEntryFor n s).irOut = s.irOut := rfl
@[simp] theorem paceEntryFor_ready (n : Nat) (s : State) : (paceEntryFor n s).ready = s.ready := rfl
@[simp] theorem paceEntryFor_ovrCount (n : Nat) (s : State) : (paceEntryFor n s).ovrCount = s.ovrCount := rfl
@[simp] theorem paceEntryFor_updPort (n : Nat) (s : State) : (paceEntryFor n s).updPort = s.updPort := rfl
@[simp] theorem paceEntryFor_held (n : Nat) (s : State) : (paceEntryFor n s).held = s.held := rfl
@[simp] theorem paceEntryFor_hostTx (n : Nat) (s : State) : (paceEntryFor n s).hostTx = s.hostTx := rfl
@[simp] theorem paceEntryFor_inputs (n : Nat) (s : State) : (paceEntryFor n s).inputs = s.inputs := rfl
@[simp] theorem paceEntryFor_wave (n : Nat) (s : State) : (paceEntryFor n s).wave = s.wave := rfl
@[simp] theorem paceEntryFor_draws (n : Nat) (s : State) : (paceEntryFor n s).draws = s.draws := rfl

/-! ### paceEntry -/

@[simp] theorem paceEntry_cmd (s : State) : (paceEntry s).cmd = s.cmd := rfl
@[simp] theorem paceEntry_mbx (s : State) : (paceEntry s).mbx = s.mbx := rfl
@[simp] theorem paceEntry_mbxV (s : State) : (paceEntry s).mbxV = s.mbxV := rfl
@[simp] theorem paceEntry_ones (s : State) : (paceEntry s).ones = s.ones := rfl
@[simp] theorem paceEntry_zeros (s : State) : (paceEntry s).zeros = s.zeros := rfl
@[simp] theorem paceEntry_bitidx (s : State) : (paceEntry s).bitidx = s.bitidx := rfl
@[simp] theorem paceEntry_cyc (s : State) : (paceEntry s).cyc = s.cyc := rfl
@[simp] theorem paceEntry_half (s : State) : (paceEntry s).half = s.half := rfl
@[simp] theorem paceEntry_irOut (s : State) : (paceEntry s).irOut = s.irOut := rfl
@[simp] theorem paceEntry_ready (s : State) : (paceEntry s).ready = s.ready := rfl
@[simp] theorem paceEntry_ovrCount (s : State) : (paceEntry s).ovrCount = s.ovrCount := rfl
@[simp] theorem paceEntry_updPort (s : State) : (paceEntry s).updPort = s.updPort := rfl
@[simp] theorem paceEntry_held (s : State) : (paceEntry s).held = s.held := rfl
@[simp] theorem paceEntry_hostTx (s : State) : (paceEntry s).hostTx = s.hostTx := rfl
@[simp] theorem paceEntry_inputs (s : State) : (paceEntry s).inputs = s.inputs := rfl
@[simp] theorem paceEntry_wave (s : State) : (paceEntry s).wave = s.wave := rfl
@[simp] theorem paceEntry_draws (s : State) : (paceEntry s).draws = s.draws := rfl

end Sys2Proof.Machine
end

