-- ==== Sys2Proof/Laws/Waveform.lean ====
section
/-! SUPPORT. The record of `ir_out` and the segment lists: levels, durations, and the record's canonical form. -/

namespace Sys2Proof.Machine

@[simp] theorem levels_nil : levels [] = [] := rfl

@[simp] theorem levels_cons (g : Segment) (w : List Segment) :
    levels (g :: w) = List.replicate g.ticks g.level ++ levels w := rfl

@[simp] theorem levels_append (v w : List Segment) : levels (v ++ w) = levels v ++ levels w := by
  simp [levels]

@[simp] theorem length_levels (w : List Segment) : (levels w).length = duration w := by
  induction w with
  | nil => rfl
  | cons g w ih => simp [duration, ih]

@[simp] theorem duration_nil : duration [] = 0 := rfl

@[simp] theorem duration_cons (g : Segment) (w : List Segment) : duration (g :: w) = g.ticks + duration w := by
  simp [duration]

@[simp] theorem duration_append (v w : List Segment) : duration (v ++ w) = duration v + duration w := by
  simp [duration]

/-- What a record adds: `n` more ticks at the level. -/
theorem levels_record (l : Bool) (n : Nat) (w : List Segment) :
    levels (record l n w).reverse = levels w.reverse ++ List.replicate n l := by
  unfold record
  split
  · simp [*]
  · split
    · simp
    · split
      · rename_i h
        simp [← h, ← List.replicate_append_replicate]
      · simp

/-- Two records at one level are one record of both. -/
theorem record_record (l : Bool) (m n : Nat) (w : List Segment) :
    record l m (record l n w) = record l (n + m) w := by
  rcases Nat.eq_zero_or_pos m with rfl | hm
  · simp [record]
  rcases Nat.eq_zero_or_pos n with rfl | hn
  · simp [record]
  have hm' : m ≠ 0 := by omega
  have hn' : n ≠ 0 := by omega
  have hnm : n + m ≠ 0 := by omega
  cases w with
  | nil => simp [record, hm', hn']
  | cons g w => by_cases h : g.level = l <;> simp [record, hm', hn', h, Nat.add_assoc]

/-- The record's canonical form is kept. -/
theorem waveWf_record (l : Bool) (n : Nat) (w : List Segment) (h : waveWf w = true) :
    waveWf (record l n w) = true := by
  unfold record
  split
  · exact h
  · rename_i hn
    match w with
    | [] => simp [waveWf]; omega
    | [g] =>
      simp only [waveWf, decide_eq_true_eq] at h
      by_cases hl : g.level = l
      · simp [hl, waveWf]; omega
      · simp only [hl, if_false, waveWf, Bool.and_eq_true, decide_eq_true_eq, bne_iff_ne]
        exact ⟨⟨by omega, fun e => hl e.symm⟩, h⟩
    | g :: k :: older =>
      simp only [waveWf, Bool.and_eq_true, decide_eq_true_eq, bne_iff_ne] at h
      by_cases hl : g.level = l
      · simp only [hl, if_true, waveWf, Bool.and_eq_true, decide_eq_true_eq, bne_iff_ne]
        exact ⟨⟨by omega, hl ▸ h.1.2⟩, h.2⟩
      · simp only [hl, if_false, waveWf, Bool.and_eq_true, decide_eq_true_eq, bne_iff_ne]
        exact ⟨⟨by omega, fun e => hl e.symm⟩, h⟩

@[simp] theorem duration_burst (n : Nat) : duration (burst n) = 26 * n := by
  induction n with
  | zero => rfl
  | succ n ih => simp [burst, ih, Config.halfPeriod]; omega

@[simp] theorem duration_symbol (b : Bool) : duration (symbol b) = 312 + symbolSpace b := by
  simp [symbol, Config.bitCycles]

end Sys2Proof.Machine
end

