-- ==== Sys2Proof/Laws/Ops.lean ====
section
/-! SUPPORT. What each shared operation of Machine/Ops.lean can do, said once. -/

namespace Sys2Proof.Machine

/-! ### The output -/

theorem emit_zero (l : Bool) (s : State) : emit l 0 s = s := rfl

theorem emit_pos (l : Bool) (n : Nat) (h : n ≠ 0) (s : State) :
    emit l n s = { s with irOut := l, wave := record l n s.wave } := by
  simp [emit, h]

theorem outputLevels_emit (l : Bool) (n : Nat) (s : State) :
    outputLevels (emit l n s) = outputLevels s ++ List.replicate n l := by
  rcases Nat.eq_zero_or_pos n with rfl | h
  · simp [emit]
  · simp only [emit_pos l n (by omega), outputLevels, levels_record]

/-! ### The countdown -/

theorem decRem_running (s : State) (h : s.rem ≠ 0#17) : decRem s = { s with rem := s.rem - 1#17 } := by
  simp only [decRem, if_neg h]

theorem decRem_zero (s : State) (h : s.rem = 0#17) :
    decRem s = { s with rem := Config.freeRem s.draws, draws := s.draws + 1 } := by
  simp only [decRem, if_pos h]

/-- A tick that does not end its half-cycle, space or wait. -/
theorem countTick_running (l : Bool) (f : State → State) (s : State) (h : 2 ≤ s.rem.toNat) :
    countTick l f s = { s with irOut := l, wave := record l 1 s.wave, rem := s.rem - 1#17 } := by
  have h0 : s.rem ≠ 0#17 := by rintro e; simp [e] at h
  have h1 : s.rem - 1#17 ≠ 0#17 := by bv_omega
  simp only [countTick, emit_pos l 1 (by decide), decRem, if_neg h0, if_neg h1]

/-- A tick that ends its half-cycle, space or wait. -/
theorem countTick_last (l : Bool) (f : State → State) (s : State) (h : s.rem = 1#17) :
    countTick l f s = f { s with irOut := l, wave := record l 1 s.wave, rem := 0#17 } := by
  simp only [countTick, emit_pos l 1 (by decide), decRem, h]
  rfl

/-- A tick that finds the countdown at 0: the free value decides whether the phase ends. -/
theorem countTick_zero (l : Bool) (f : State → State) (s : State) (h : s.rem = 0#17) :
    countTick l f s =
      let t := { s with
        irOut := l, wave := record l 1 s.wave, rem := Config.freeRem s.draws, draws := s.draws + 1 }
      if t.rem = 0#17 then f t else t := by
  simp only [countTick, emit_pos l 1 (by decide), decRem, if_pos h]

/-! ### The burst -/

theorem burstStep_high (n : Nat) (f : State → State) (s : State) (h : s.half = false) :
    burstStep n f s = { s with half := true, rem := 13#17 } := by
  simp [burstStep, h, Config.halfPeriod]

theorem burstStep_low (n : Nat) (f : State → State) (s : State) (h : s.half = true) (hc : (s.cyc + 1#7).toNat < n) :
    burstStep n f s = { s with cyc := s.cyc + 1#7, half := false, rem := 13#17 } := by
  simp only [burstStep, h, if_true, if_pos hc]
  rfl

theorem burstStep_done (n : Nat) (f : State → State) (s : State) (h : s.half = true) (hc : ¬ (s.cyc + 1#7).toNat < n) :
    burstStep n f s = f { s with cyc := s.cyc + 1#7 } := by
  simp only [burstStep, h, if_true, if_neg hc]

theorem outputLevels_emitCycles (n : Nat) (s : State) :
    outputLevels (emitCycles n s) = outputLevels s ++ levels (burst n) := by
  induction n generalizing s with
  | zero => simp [emitCycles, burst]
  | succ n ih => simp [emitCycles, burst, ih, outputLevels_emit]

/-- What `n` carrier cycles change: the output and its record. -/
theorem emitCycles_frame (n : Nat) (s : State) :
    emitCycles n s = { s with irOut := (emitCycles n s).irOut, wave := (emitCycles n s).wave } := by
  induction n generalizing s with
  | zero => rfl
  | succ n ih =>
    rw [emitCycles, ih]
    simp [emit_pos, Config.halfPeriod]

theorem emitCycles_irOut (n : Nat) (s : State) : (emitCycles n s).irOut = if n = 0 then s.irOut else false := by
  induction n generalizing s with
  | zero => rfl
  | succ n ih => rw [emitCycles, ih]; split <;> simp [emit_pos, Config.halfPeriod]

theorem outputLevels_emitPulses (n : Nat) (s : State) :
    outputLevels (emitPulses n s) = outputLevels s ++ levels (burst n) := outputLevels_emitCycles n s

/-- What a burst run to its end changes. -/
theorem emitPulses_frame (n : Nat) (s : State) :
    emitPulses n s = { s with
      irOut := if n = 0 then s.irOut else false
      wave := (emitPulses n s).wave, cyc := BitVec.ofNat 7 n, half := true, rem := 0#17 } := by
  rw [← emitCycles_irOut n s]
  conv => lhs; rw [emitPulses, emitCycles_frame]
  rfl

/-- What a low hold changes. -/
theorem outputLevels_holdLow (d : Nat) (s : State) :
    outputLevels (holdLow d s) = outputLevels s ++ List.replicate d false := outputLevels_emit false d s

/-! ### The boundary -/

theorem pollUpdate_eq (s : State) : pollUpdate s = { s with cmd := polledCommand s, mbxV := false } := by
  cases h : s.mbxV <;> simp [pollUpdate, polledCommand, h]
  rw [← h]

/-- The boundary actions after the ready strobe. -/
theorem boundary_eq (s : State) :
    boundary s = { s with
      cmd := polledCommand s, mbxV := false, ones := 0#6, zeros := 0#6, bitidx := 0#5
      phase := phaseHmark, cyc := 0#7, half := false, rem := 13#17 } := by
  simp only [boundary, pollUpdate_eq, clearStatistics, burstEntry, Config.halfPeriod]

/-! ### The statistics and the pacer -/

theorem tally_true (s : State) (h : s.ones ≠ 63#6) : tally true s = { s with ones := s.ones + 1#6 } := by
  simp only [tally, countNext, if_true, if_neg h]

theorem tally_false (s : State) (h : s.zeros ≠ 63#6) : tally false s = { s with zeros := s.zeros + 1#6 } := by
  simp only [tally, countNext, Bool.false_eq_true, if_false, if_neg h]

/-- The closed form of `TotalTime` (R79). -/
theorem totalTime_eq (o z : Count) : totalTime o z = 14296 + 688 * o.toNat + 288 * z.toNat := by
  simp [totalTime, Config.hdrCycles, Config.cyclePeriod, Config.hdrSpace, Config.ftrCycles, Config.bitCycles,
    Config.bitsPerByte, Config.bytesPerPacket, Config.oneSpace, Config.zeroSpace]

/-- With this hardware's constants the residual is positive whatever the 6-bit statistics hold. -/
theorem residualOf_pos (o z : Count) : 0 < residualOf Config.targetPeriod o z := by
  have ho := o.isLt
  have hz := z.isLt
  simp only [residualOf, totalTime_eq, Config.targetPeriod, Config.packetsPerSecond]
  omega

/-- The pacer's entry with this hardware's constants: the overrun counter stays (R87). -/
theorem paceEntry_eq (s : State) :
    paceEntry s = { s with
      elapsed := BitVec.ofNat 17 (totalTime s.ones s.zeros)
      resid := BitVec.ofInt 32 (residualOf Config.targetPeriod s.ones s.zeros)
      rem := BitVec.ofNat 17 (clampedWait (residualOf Config.targetPeriod s.ones s.zeros))
      phase := phasePace } := by
  have h := residualOf_pos s.ones s.zeros
  have : isOverrun (residualOf Config.targetPeriod s.ones s.zeros) = false := by
    simp [isOverrun]; omega
  simp [paceEntry, paceEntryFor, overrunAfter, this]

/-! ### The adapter -/

@[simp] theorem nextInput_withNextGroup (w : Word) (s : State) :
    nextInput (withNextGroup w s) = ⟨false, .byte (trimOf w)⟩ := rfl

@[simp] theorem held_withNextGroup (w : Word) (s : State) :
    (withNextGroup w s).held = .three (yawOf w) (pitchOf w) (throttleByteOf w) := rfl

/-- A byte that does not complete a group only joins the held ones (R109, R111). -/
theorem takeByte_partial (b : Byte) (s : State) (h : delivers (.byte b) s.held = false) :
    ∃ held, takeByte b s = { s with held := held } := by
  unfold takeByte
  cases hs : s.held <;> simp [hs, delivers] at h ⊢

/-- What the environment can change in a tick. -/
theorem arrive_frame (a : Arrival) (s : State) :
    arrive a s = { s with
      mbx := (arrive a s).mbx, mbxV := (arrive a s).mbxV
      updPort := (arrive a s).updPort, held := (arrive a s).held } := by
  cases a with
  | nothing => rfl
  | byte b => simp only [arrive, takeByte]; split <;> rfl

/-- Without a delivery the mailbox stays. -/
theorem arrive_no_delivery (a : Arrival) (s : State) (h : delivers a s.held = false) :
    ∃ held, arrive a s = { s with held := held } := by
  cases a with
  | nothing => exact ⟨s.held, rfl⟩
  | byte b => exact takeByte_partial b s h

end Sys2Proof.Machine
end

