-- ==== Sys2Proof/Laws/PerInstr.lean ====
section
/-! SUPPORT. Statements for all instructions, one lemma per constructor: an instruction has a code exactly when its row's
format has bits, and the code is one of that format (spec/30_encoding.md rules R47, R59; spec/opcode_table.json). -/

namespace Sys2Proof.Laws.TableFormat

/-- The instruction's code is of its row's format; an operation, and nothing else, has none. -/
def Statement (i : Instr) : Prop :=
  (i.format = .operation ↔ encode i = none) ∧ ∀ c, encode i = some c → c.format = i.format

theorem start : Statement .start := by
  simp [Statement, Instr.format, encode, Code.format]

theorem hmark : Statement .hmark := by
  simp [Statement, Instr.format, encode, Code.format]

theorem hspace : Statement .hspace := by
  simp [Statement, Instr.format, encode, Code.format]

theorem bmark : Statement .bmark := by
  simp [Statement, Instr.format, encode, Code.format]

theorem bspace : Statement .bspace := by
  simp [Statement, Instr.format, encode, Code.format]

theorem fmark : Statement .fmark := by
  simp [Statement, Instr.format, encode, Code.format]

theorem pace : Statement .pace := by
  simp [Statement, Instr.format, encode, Code.format]

theorem reserved111 : Statement .reserved111 := by
  simp [Statement, Instr.format, encode, Code.format]

theorem hdr : Statement .hdr := by
  simp [Statement, Instr.format, encode, Code.format]

theorem one : Statement .one := by
  simp [Statement, Instr.format, encode, Code.format]

theorem zero : Statement .zero := by
  simp [Statement, Instr.format, encode, Code.format]

theorem ftr : Statement .ftr := by
  simp [Statement, Instr.format, encode, Code.format]

theorem upd (y p : Byte) (c : Bool) (t : BitVec 7) (r : Byte) : Statement (.upd y p c t r) := by
  simp [Statement, Instr.format, encode, Code.format]

theorem rdy : Statement .rdy := by
  simp [Statement, Instr.format, encode, Code.format]

theorem emitPulses (n : Cycles) : Statement (.emitPulses n) := by
  simp [Statement, Instr.format, encode, Code.format]

theorem encodeBit (b : Bool) : Statement (.encodeBit b) := by
  simp [Statement, Instr.format, encode, Code.format]

theorem transmit (cmd : Word) : Statement (.transmit cmd) := by
  simp [Statement, Instr.format, encode, Code.format]

theorem residualDelay (o z : Count) : Statement (.residualDelay o z) := by
  simp [Statement, Instr.format, encode, Code.format]

theorem paceWait (w : Ticks) : Statement (.paceWait w) := by
  simp [Statement, Instr.format, encode, Code.format]

theorem pollUpdate : Statement .pollUpdate := by
  simp [Statement, Instr.format, encode, Code.format]

theorem signalReady : Statement .signalReady := by
  simp [Statement, Instr.format, encode, Code.format]

theorem mailboxWrite (d : Word) : Statement (.mailboxWrite d) := by
  simp [Statement, Instr.format, encode, Code.format]

end Sys2Proof.Laws.TableFormat
end

