-- ==== Sys2Proof/Laws/Phases.lean ====
section
/-! SUPPORT. The ticks of the phases in terms of `ticked`: a tick that runs on, and a tick that ends its half-cycle, space or
wait. -/

namespace Sys2Proof.Machine

@[simp] theorem ticked_cmd (l : Bool) (s : State) : (ticked l s).cmd = s.cmd := rfl
@[simp] theorem ticked_mbx (l : Bool) (s : State) : (ticked l s).mbx = s.mbx := rfl
@[simp] theorem ticked_mbxV (l : Bool) (s : State) : (ticked l s).mbxV = s.mbxV := rfl
@[simp] theorem ticked_ones (l : Bool) (s : State) : (ticked l s).ones = s.ones := rfl
@[simp] theorem ticked_zeros (l : Bool) (s : State) : (ticked l s).zeros = s.zeros := rfl
@[simp] theorem ticked_bitidx (l : Bool) (s : State) : (ticked l s).bitidx = s.bitidx := rfl
@[simp] theorem ticked_phase (l : Bool) (s : State) : (ticked l s).phase = s.phase := rfl
@[simp] theorem ticked_cyc (l : Bool) (s : State) : (ticked l s).cyc = s.cyc := rfl
@[simp] theorem ticked_half (l : Bool) (s : State) : (ticked l s).half = s.half := rfl
@[simp] theorem ticked_rem (l : Bool) (s : State) : (ticked l s).rem = s.rem - 1#17 := rfl
@[simp] theorem ticked_elapsed (l : Bool) (s : State) : (ticked l s).elapsed = s.elapsed := rfl
@[simp] theorem ticked_resid (l : Bool) (s : State) : (ticked l s).resid = s.resid := rfl
@[simp] theorem ticked_ovrCnt (l : Bool) (s : State) : (ticked l s).ovrCnt = s.ovrCnt := rfl
@[simp] theorem ticked_irOut (l : Bool) (s : State) : (ticked l s).irOut = l := rfl
@[simp] theorem ticked_ready (l : Bool) (s : State) : (ticked l s).ready = false := rfl
@[simp] theorem ticked_ovrCount (l : Bool) (s : State) : (ticked l s).ovrCount = s.ovrCnt := rfl
@[simp] theorem ticked_updPort (l : Bool) (s : State) : (ticked l s).updPort = s.updPort := rfl
@[simp] theorem ticked_held (l : Bool) (s : State) : (ticked l s).held = s.held := rfl
@[simp] theorem ticked_hostTx (l : Bool) (s : State) : (ticked l s).hostTx = s.hostTx := rfl
@[simp] theorem ticked_inputs (l : Bool) (s : State) : (ticked l s).inputs = s.inputs := rfl
@[simp] theorem ticked_wave (l : Bool) (s : State) : (ticked l s).wave = record l 1 s.wave := rfl
@[simp] theorem ticked_draws (l : Bool) (s : State) : (ticked l s).draws = s.draws := rfl

theorem outputLevels_ticked (l : Bool) (s : State) : outputLevels (ticked l s) = outputLevels s ++ [l] := by
  simp only [outputLevels, ticked_wave, levels_record]
  rfl

theorem countTick_begin_running (l : Bool) (f : State → State) (s : State) (h : 2 ≤ s.rem.toNat) :
    countTick l f (beginTick s) = ticked l s := by
  rw [countTick_running _ _ _ (by simpa using h)]
  rfl

theorem countTick_begin_last (l : Bool) (f : State → State) (s : State) (h : s.rem = 1#17) :
    countTick l f (beginTick s) = f (ticked l s) := by
  rw [countTick_last _ _ _ (by simpa using h)]
  simp [ticked, h]

theorem burstTick_begin_running (n : Nat) (f : State → State) (s : State) (h : 2 ≤ s.rem.toNat) :
    burstTick n f (beginTick s) = ticked (!s.half) s := countTick_begin_running _ _ s h

theorem burstTick_begin_high (n : Nat) (f : State → State) (s : State) (h : s.rem = 1#17) (hh : s.half = false) :
    burstTick n f (beginTick s) = { ticked true s with half := true, rem := 13#17 } := by
  rw [burstTick, countTick_begin_last _ _ s h, burstStep_high _ _ _ (by simpa using hh)]
  simp [hh]

theorem burstTick_begin_low (n : Nat) (f : State → State) (s : State) (h : s.rem = 1#17) (hh : s.half = true)
    (hc : (s.cyc + 1#7).toNat < n) :
    burstTick n f (beginTick s) = { ticked false s with cyc := s.cyc + 1#7, half := false, rem := 13#17 } := by
  rw [burstTick, countTick_begin_last _ _ s h, burstStep_low _ _ _ (by simpa using hh) (by simpa using hc)]
  simp [hh]

theorem burstTick_begin_done (n : Nat) (f : State → State) (s : State) (h : s.rem = 1#17) (hh : s.half = true)
    (hc : n ≤ (s.cyc + 1#7).toNat) :
    burstTick n f (beginTick s) = f { ticked false s with cyc := s.cyc + 1#7 } := by
  rw [burstTick, countTick_begin_last _ _ s h, burstStep_done _ _ _ (by simpa using hh) (by simpa using hc)]
  simp [hh]

/-- What a counted tick keeps: a property its passing gives and its phase's end keeps. -/
theorem countTick_keeps (P : State → Prop) (l : Bool) (f : State → State) (s : State)
    (h : P (decRem (emit l 1 s))) (hf : ∀ t, P t → P (f t)) : P (countTick l f s) := by
  unfold countTick
  dsimp only
  split
  · exact hf _ h
  · exact h

/-- What a burst's tick keeps: a property its passing gives, the burst registers do not enter, and the burst's end keeps. -/
theorem burstTick_keeps (P : State → Prop) (n : Nat) (f : State → State) (s : State)
    (h : P (decRem (emit (!s.half) 1 s)))
    (hb : ∀ t c k r, P t → P { t with cyc := c, half := k, rem := r }) (hf : ∀ t, P t → P (f t)) :
    P (burstTick n f s) := by
  refine countTick_keeps P _ _ _ h fun t ht => ?_
  unfold burstStep
  dsimp only
  split
  · split
    · exact hb t _ _ _ ht
    · exact hf _ (hb t _ t.half t.rem ht)
  · exact hb t t.cyc _ _ ht

/-- The eight phase codes. -/
theorem phase_cases (p : PhaseCode) :
    p = phaseStart ∨ p = phaseHmark ∨ p = phaseHspace ∨ p = phaseBmark ∨ p = phaseBspace ∨ p = phaseFmark
      ∨ p = phasePace ∨ p = phaseReserved := by
  revert p
  decide

/-- The boundary actions and the header's first tick. -/
theorem hmarkTick_boundary (s : State) :
    hmarkTick (boundary s) = { s with
      cmd := polledCommand s, mbxV := false, ones := 0#6, zeros := 0#6, bitidx := 0#5
      phase := phaseHmark, cyc := 0#7, half := false, rem := 12#17, irOut := true, wave := record true 1 s.wave } := by
  rw [boundary_eq, hmarkTick, burstTick, countTick_running _ _ _ (by decide : 2 ≤ BitVec.toNat 13#17)]
  simp

end Sys2Proof.Machine
end

