-- ==== Sys2Proof/Laws/Step.lean ====
section
/-! SUPPORT. What a step can do, said once, and runs of ticks. -/

namespace Sys2Proof.Machine

theorem step_reset (s : State) (h : (nextInput s).rst = true) : step s = .next (resetTick s) := by
  simp [step, h]

theorem step_tick (s : State) (h : (nextInput s).rst = false) :
    step s = endTick (nextInput s).arrival (exec (decodePhase s.phase) (openTick s)) := by
  simp [step, h]

/-- The state in which a tick of a phase other than the reserved one leaves the block, before the adapter's part. -/
def phaseTick (s : State) : State :=
  if atBoundary s then hmarkTick (boundary { beginTick s with ready := s.phase == phasePace })
  else if s.phase = phaseHmark then hmarkTick (beginTick s)
  else if s.phase = phaseHspace then countTick false hspaceEnd (beginTick s)
  else if s.phase = phaseBmark then burstTick Config.bitCycles bmarkDone (beginTick s)
  else if s.phase = phaseBspace then countTick false bspaceEnd (beginTick s)
  else if s.phase = phaseFmark then burstTick Config.ftrCycles paceEntry (beginTick s)
  else countTick false (fun t => t) (beginTick s)

/-- A phase's instruction in its own phase is that phase's tick. -/
theorem exec_phase (s : State) (h : s.phase ≠ phaseReserved) : exec (decodePhase s.phase) s = .next (phaseTick s) := by
  rcases phase_cases s.phase with hp | hp | hp | hp | hp | hp | hp | hp
  case inr.inr.inr.inr.inr.inr.inl =>
    rw [hp]
    change execPace s = _
    by_cases hr : s.rem = 0#17
    · simp only [execPace, phaseTick, atBoundary, hp, hr]
      rfl
    · have hb : atBoundary s = false := by
        simp [atBoundary, hp, hr, phasePace, phaseStart]
      simp only [execPace, if_neg hr, phaseTick, hb, hp]
      rfl
  case inr.inr.inr.inr.inr.inr.inr => exact absurd hp h
  all_goals
    rw [hp]
    simp only [phaseTick, atBoundary, hp]
    rfl

/-- What a phase's tick keeps: a property that a boundary tick gives, or, off the boundary, a property that the tick's
passing gives and that each phase's end keeps. -/
theorem phaseTick_keeps (P : State → Prop) (s : State)
    (boundary : atBoundary s = true →
      P { s with
        cmd := polledCommand s, mbxV := false, ones := 0#6, zeros := 0#6, bitidx := 0#5
        phase := phaseHmark, cyc := 0#7, half := false, rem := 12#17, irOut := true
        ready := s.phase == phasePace, ovrCount := s.ovrCnt, wave := record true 1 s.wave })
    (passing : atBoundary s = false → P (decRem (emit (burstPhase s.phase && !s.half) 1 (beginTick s))))
    (burst : atBoundary s = false → ∀ t c k r, P t → P { t with cyc := c, half := k, rem := r })
    (ends : atBoundary s = false → ∀ t, P t →
      P (hmarkDone t) ∧ P (hspaceEnd t) ∧ P (bmarkDone t) ∧ P (bspaceEnd t) ∧ P (paceEntry t)) :
    P (phaseTick s) := by
  unfold phaseTick
  cases ha : atBoundary s
  · have passing := passing ha
    have burst := burst ha
    have ends := ends ha
    simp only [Bool.false_eq_true, if_false]
    split_ifs with c1 c2 c3 c4 c5
    · rw [c1] at passing
      exact burstTick_keeps P _ _ _ passing burst fun t h => (ends t h).1
    · rw [c2] at passing
      exact countTick_keeps P _ _ _ passing fun t h => (ends t h).2.1
    · rw [c3] at passing
      exact burstTick_keeps P _ _ _ passing burst fun t h => (ends t h).2.2.1
    · rw [c4] at passing
      exact countTick_keeps P _ _ _ passing fun t h => (ends t h).2.2.2.1
    · rw [c5] at passing
      exact burstTick_keeps P _ _ _ passing burst fun t h => (ends t h).2.2.2.2
    · have hb : burstPhase s.phase = false := by simp [burstPhase, c1, c3, c5]
      rw [hb] at passing
      exact countTick_keeps P _ _ _ passing fun _ h => h
  · simp only [if_true]
    rw [hmarkTick_boundary]
    exact boundary ha

/-- What a step can do: a reset tick; the fault of the reserved code; or a tick of the phase, then the adapter's part. -/
theorem step_cases (s : State) :
    ((nextInput s).rst = true ∧ step s = .next (resetTick s))
    ∨ ((nextInput s).rst = false ∧ s.phase = phaseReserved ∧ step s = .fault .reservedPhase)
    ∨ ((nextInput s).rst = false ∧ s.phase ≠ phaseReserved
        ∧ step s = .next (adapterTick (nextInput s).arrival (phaseTick (openTick s)))) := by
  cases h : (nextInput s).rst
  · by_cases hp : s.phase = phaseReserved
    · refine .inr (.inl ⟨rfl, hp, ?_⟩)
      rw [step_tick s h, hp]
      rfl
    · refine .inr (.inr ⟨rfl, hp, ?_⟩)
      rw [step_tick s h, ← openTick_phase s, exec_phase (openTick s) hp]
      rfl
  · exact .inl ⟨rfl, step_reset s h⟩

theorem step_phase (s : State) (h : (nextInput s).rst = false) (hp : s.phase ≠ phaseReserved) :
    step s = .next (adapterTick (nextInput s).arrival (phaseTick (openTick s))) := by
  rcases step_cases s with ⟨h', _⟩ | ⟨_, h', _⟩ | ⟨_, _, h'⟩
  · simp [h] at h'
  · exact absurd h' hp
  · exact h'

@[simp] theorem run_zero (s : State) : run 0 s = .next s := rfl

theorem run_succ_next (k : Nat) (s t : State) (h : step s = .next t) : run (k + 1) s = run k t := by
  simp [run, h]

/-- A run of `m + n` ticks is a run of `m` and then one of `n`. -/
theorem run_add (m n : Nat) (s t : State) (h : run m s = .next t) : run (m + n) s = run n t := by
  induction m generalizing s with
  | zero => simp at h; simp [h]
  | succ m ih =>
    rw [Nat.succ_add]
    simp only [run] at h ⊢
    split at h
    · rename_i u hu
      exact ih u h
    · cases h
    · cases h

@[simp] theorem atBoundary_openTick (s : State) : atBoundary (openTick s) = atBoundary s := rfl

end Sys2Proof.Machine
end

