-- ==== Sys2Proof/Laws/Run.lean ====
section
/-! SUPPORT. Runs of ticks that no boundary and no reset interrupts: how the environment drops out, and what half-cycles, bursts
and spaces add up to. -/

namespace Sys2Proof.Machine

/-! ### The block's side of a state -/

/-- The state with what lies outside the block taken from another: the mailbox, the adapter, and the coming inputs. -/
def withOutsideOf (e s : State) : State :=
  { s with mbx := e.mbx, mbxV := e.mbxV, updPort := e.updPort, held := e.held, hostTx := e.hostTx, inputs := e.inputs }

/-- The block's side of a state: nothing outside it. -/
def blockOf (s : State) : State := withOutsideOf State.reset s

theorem withOutsideOf_countTick (e : State) (l : Bool) (f : State → State) (s : State)
    (hf : ∀ t, f (withOutsideOf e t) = withOutsideOf e (f t)) :
    countTick l f (withOutsideOf e s) = withOutsideOf e (countTick l f s) := by
  have h : decRem (emit l 1 (withOutsideOf e s)) = withOutsideOf e (decRem (emit l 1 s)) := by
    simp only [emit_pos l 1 (by decide), decRem, withOutsideOf]
    split <;> rfl
  unfold countTick
  dsimp only
  rw [h]
  change (if (decRem (emit l 1 s)).rem = 0#17 then _ else _) = _
  split
  · exact hf _
  · rfl

theorem withOutsideOf_burstTick (e : State) (n : Nat) (f : State → State) (s : State)
    (hf : ∀ t, f (withOutsideOf e t) = withOutsideOf e (f t)) :
    burstTick n f (withOutsideOf e s) = withOutsideOf e (burstTick n f s) := by
  refine withOutsideOf_countTick e _ _ s fun t => ?_
  change (if t.half then _ else _) = _
  unfold burstStep
  dsimp only
  split
  · change (if (t.cyc + 1#7).toNat < n then _ else f (withOutsideOf e { t with cyc := t.cyc + 1#7 })) = _
    rw [hf]
    split <;> rfl
  · rfl

theorem withOutsideOf_bspaceEnd (e s : State) : bspaceEnd (withOutsideOf e s) = withOutsideOf e (bspaceEnd s) := by
  have h : ∀ b, tally b (withOutsideOf e s) = withOutsideOf e (tally b s) := by
    intro b
    cases b <;> rfl
  change (if s.bitidx = 31#5 then _ else _) = withOutsideOf e (if s.bitidx = 31#5 then _ else _)
  change (if s.bitidx = 31#5 then burstEntry { tally (dataBit s.cmd s.bitidx) (withOutsideOf e s) with phase := phaseFmark }
    else burstEntry { tally (dataBit s.cmd s.bitidx) (withOutsideOf e s) with
      bitidx := s.bitidx + 1#5, phase := phaseBmark }) = _
  rw [h]
  split <;> rfl

/-- Off the boundary nothing outside the block enters its tick (R64, R139). -/
theorem phaseTick_withOutsideOf (e s : State) (h : atBoundary s = false) :
    phaseTick (withOutsideOf e s) = withOutsideOf e (phaseTick s) := by
  have h' : atBoundary (withOutsideOf e s) = false := h
  have hp : (withOutsideOf e s).phase = s.phase := rfl
  have hb : beginTick (withOutsideOf e s) = withOutsideOf e (beginTick s) := rfl
  unfold phaseTick
  rw [h, h', hp, hb]
  simp only [Bool.false_eq_true, if_false]
  split_ifs
  · exact withOutsideOf_burstTick e _ _ _ fun _ => rfl
  · exact withOutsideOf_countTick e _ _ _ fun _ => rfl
  · exact withOutsideOf_burstTick e _ _ _ fun _ => rfl
  · exact withOutsideOf_countTick e _ _ _ (withOutsideOf_bspaceEnd e)
  · exact withOutsideOf_burstTick e _ _ _ fun _ => rfl
  · exact withOutsideOf_countTick e _ _ _ fun _ => rfl

theorem blockOf_phaseTick (s : State) (h : atBoundary s = false) : blockOf (phaseTick s) = phaseTick (blockOf s) :=
  (phaseTick_withOutsideOf State.reset s h).symm

theorem blockOf_openTick (s : State) : blockOf (openTick s) = blockOf s := rfl

theorem blockOf_adapterTick (a : Arrival) (s : State) : blockOf (adapterTick a s) = blockOf s := by
  unfold adapterTick
  rw [arrive_frame]
  split <;> rfl

/-! ### Runs between boundaries -/

/-- `n` ticks of the block, nothing arriving. -/
def tickN : Nat → State → State
  | 0, s => s
  | n + 1, s => tickN n (phaseTick s)

/-- `n` ticks of the block lead from `s` to `t`, and each starts off the boundary and outside the reserved code. -/
def Leads (n : Nat) (s t : State) : Prop :=
  tickN n s = t ∧ ∀ k, k < n → atBoundary (tickN k s) = false ∧ (tickN k s).phase ≠ phaseReserved

theorem tickN_add (m n : Nat) (s : State) : tickN (m + n) s = tickN n (tickN m s) := by
  induction m generalizing s with
  | zero => simp [tickN]
  | succ m ih => rw [Nat.succ_add, tickN, tickN, ih]

theorem Leads.trans {m n : Nat} {s t u : State} (h : Leads m s t) (h' : Leads n t u) : Leads (m + n) s u := by
  refine ⟨by rw [tickN_add, h.1, h'.1], fun k hk => ?_⟩
  by_cases hm : k < m
  · exact h.2 k hm
  · obtain ⟨j, rfl⟩ := Nat.exists_eq_add_of_le (Nat.le_of_not_lt hm)
    rw [tickN_add, h.1]
    exact h'.2 j (by omega)

theorem Leads.one {s t : State} (hb : atBoundary s = false) (hp : s.phase ≠ phaseReserved) (h : phaseTick s = t) :
    Leads 1 s t := by
  refine ⟨h, fun k hk => ?_⟩
  obtain rfl : k = 0 := by omega
  exact ⟨hb, hp⟩

/-- The reset level of the next tick, under `noResetWithin`. -/
theorem nextInput_noReset {n : Nat} {s : State} (h : noResetWithin (n + 1) s) : (nextInput s).rst = false := by
  unfold nextInput
  cases hi : s.inputs with
  | nil => rfl
  | cons i is => exact h i (by simp [hi])

theorem noResetWithin_tail {n : Nat} {s t : State} (h : noResetWithin (n + 1) s) (ht : t.inputs = s.inputs.tail) :
    noResetWithin n t := by
  intro i hi
  rw [ht] at hi
  cases hs : s.inputs with
  | nil => simp [hs] at hi
  | cons j js =>
    rw [hs] at hi
    exact h i (by rw [hs]; simp at hi ⊢; exact .inr hi)

theorem phaseTick_inputs (s : State) : (phaseTick s).inputs = s.inputs := by
  refine phaseTick_keeps (fun t => t.inputs = s.inputs) s (fun _ => rfl) (fun _ => by simp) (fun _ t _ _ _ h => h)
    fun _ t h => ⟨h, h, h, ?_, by rw [paceEntry_eq]; exact h⟩
  simp only [bspaceEnd]
  split <;> simpa using h

/-- The machine's run between boundaries is the block's, whatever the environment does, if no reset comes. -/
theorem run_of_ticks {n : Nat} {s t : State} (h : Leads n (blockOf s) t) (hr : noResetWithin n s) :
    ∃ u, run n s = .next u ∧ blockOf u = t ∧ u.inputs = s.inputs.drop n := by
  induction n generalizing s with
  | zero => exact ⟨s, rfl, h.1, by simp⟩
  | succ n ih =>
    have h0 := h.2 0 (by omega)
    have hb : atBoundary (openTick s) = false := h0.1
    have hs := step_phase s (nextInput_noReset hr) h0.2
    set t' := adapterTick (nextInput s).arrival (phaseTick (openTick s)) with ht'
    have hin : t'.inputs = s.inputs.tail := by
      rw [ht', adapterTick_inputs, phaseTick_inputs]
      rfl
    have hbl : blockOf t' = phaseTick (blockOf s) := by
      rw [ht', blockOf_adapterTick, blockOf_phaseTick _ hb, blockOf_openTick]
    obtain ⟨u, hu, hub, hui⟩ := ih (s := t')
      ⟨by rw [hbl]; exact h.1, fun k hk => by rw [hbl]; exact h.2 (k + 1) (by omega)⟩ (noResetWithin_tail hr hin)
    exact ⟨u, by rw [run_succ_next n s t' hs, hu], hub, by rw [hui, hin, List.drop_tail]⟩

/-! ### Half-cycles, bursts and spaces -/

/-- What `n` ticks at a level change by passing. -/
def passed (l : Bool) (n : Nat) (s : State) : State :=
  { s with
    irOut := l
    ready := false
    ovrCount := s.ovrCnt
    wave := record l n s.wave
    rem := s.rem - BitVec.ofNat 17 n }

/-- The phases of the packet: off the boundary whatever the countdown. -/
theorem not_boundary_of_rem (s : State) (hs : s.phase ≠ phaseStart) (hr : s.rem ≠ 0#17) : atBoundary s = false := by
  simp [atBoundary, hs, hr]

theorem phaseTick_running (s : State) (hs : s.phase ≠ phaseStart) (hr : 2 ≤ s.rem.toNat) :
    phaseTick s = ticked (burstPhase s.phase && !s.half) s := by
  have hb : atBoundary s = false := not_boundary_of_rem s hs (by rintro e; simp [e] at hr)
  unfold phaseTick hmarkTick
  simp only [hb, Bool.false_eq_true, if_false, burstTick_begin_running _ _ _ hr, countTick_begin_running _ _ _ hr]
  split_ifs with c1 c2 c3 c4 c5
  case neg => rw [show burstPhase s.phase = false by simp [burstPhase, c1, c3, c5]]; rfl
  all_goals simp [burstPhase, *]

/-- `n + 1` ticks that do not reach the countdown's end. -/
theorem ticks_passing (n : Nat) (s : State) (hs : s.phase ≠ phaseStart) (hp : s.phase ≠ phaseReserved)
    (hr : n + 2 ≤ s.rem.toNat) : Leads (n + 1) s (passed (burstPhase s.phase && !s.half) (n + 1) s) := by
  have one : ∀ t : State, t.phase ≠ phaseStart → t.phase ≠ phaseReserved → 2 ≤ t.rem.toNat →
      Leads 1 t (ticked (burstPhase t.phase && !t.half) t) := fun t h h' h'' =>
    Leads.one (not_boundary_of_rem t h (by rintro e; simp [e] at h'')) h' (phaseTick_running t h h'')
  induction n with
  | zero => exact one s hs hp (by omega)
  | succ n ih =>
    have h := (ih (by omega)).trans (one (passed (burstPhase s.phase && !s.half) (n + 1) s) hs hp (by
      have := s.rem.isLt
      simp only [passed, BitVec.toNat_sub, BitVec.toNat_ofNat]
      omega))
    refine cast ?_ h
    congr 1
    simp only [passed, ticked, record_record, BitVec.sub_sub]
    congr 1
    rw [← BitVec.ofNat_add (n := 17) (n + 1) 1]

/-- A low wait or space from its first tick to its last: `d` ticks, then the phase's end. -/
theorem ticks_hold (d : Nat) (f : State → State) (s : State) (hs : s.phase ≠ phaseStart) (hp : s.phase ≠ phaseReserved)
    (hb : burstPhase s.phase = false) (hd : s.rem.toNat = d + 1)
    (hf : ∀ t, t.phase = s.phase → t.rem = 1#17 → phaseTick t = countTick false f (beginTick t)) :
    Leads (d + 1) s (f (passed false (d + 1) s)) := by
  have last : ∀ t : State, t.phase = s.phase → t.rem = 1#17 → Leads 1 t (f (ticked false t)) := fun t h h1 =>
    Leads.one (not_boundary_of_rem t (h ▸ hs) (by rw [h1]; decide)) (h ▸ hp)
      (by rw [hf t h h1, countTick_begin_last _ _ _ h1])
  cases d with
  | zero =>
    have h := last s rfl (by bv_omega)
    simpa [passed, ticked] using h
  | succ d =>
    have h := ticks_passing d s hs hp (by omega)
    rw [hb] at h
    have h' := h.trans (last (passed false (d + 1) s) rfl (by
      apply BitVec.eq_of_toNat_eq
      have := s.rem.isLt
      simp only [passed, BitVec.toNat_sub, BitVec.toNat_ofNat]
      omega))
    refine cast ?_ h'
    congr 2
    simp only [passed, ticked, record_record, BitVec.sub_sub]
    congr 1
    rw [← BitVec.ofNat_add (n := 17) (d + 1) 1]

/-- A half-cycle of a burst from its first tick to its last: 13 ticks, then `BurstStep`. -/
theorem ticks_half (n : Nat) (f : State → State) (s : State) (hs : s.phase ≠ phaseStart) (hp : s.phase ≠ phaseReserved)
    (hb : burstPhase s.phase = true) (hr : s.rem = 13#17)
    (hf : ∀ t, t.phase = s.phase → t.rem = 1#17 → phaseTick t = burstTick n f (beginTick t)) :
    Leads 13 s (burstStep n f (passed (!s.half) 13 s)) := by
  have h := ticks_passing 11 s hs hp (by rw [hr]; decide)
  rw [hb] at h
  have hl : (passed (!s.half) 12 s).rem = 1#17 := by simp [passed, hr]
  have h' := h.trans (Leads.one (s := passed (true && !s.half) 12 s) (t := burstStep n f (passed (!s.half) 13 s))
    (not_boundary_of_rem _ hs (by rw [Bool.true_and, hl]; decide)) hp (by
      rw [Bool.true_and, hf (passed (!s.half) 12 s) rfl hl, burstTick, countTick_begin_last _ _ _ hl]
      simp only [ticked, passed, beginTick, record_record, hr, BitVec.sub_sub]
      rfl))
  exact h'

/-- A state with what a burst changes replaced. -/
def burstAt (l : Bool) (w : List Segment) (c : Cycles) (k : Bool) (r : Ticks) (s : State) : State :=
  { s with irOut := l, ready := false, ovrCount := s.ovrCnt, wave := w, cyc := c, half := k, rem := r }

theorem ticks_high (n : Nat) (f : State → State) (s : State) (hs : s.phase ≠ phaseStart) (hp : s.phase ≠ phaseReserved)
    (hb : burstPhase s.phase = true) (hr : s.rem = 13#17) (hh : s.half = false)
    (hf : ∀ t, t.phase = s.phase → t.rem = 1#17 → phaseTick t = burstTick n f (beginTick t)) :
    Leads 13 s (burstAt true (record true 13 s.wave) s.cyc true 13#17 s) := by
  have h := ticks_half n f s hs hp hb hr hf
  rw [burstStep_high _ _ (passed (!s.half) 13 s) hh] at h
  simpa only [passed, hh, burstAt, Bool.not_false] using h

theorem ticks_low (n : Nat) (f : State → State) (s : State) (hs : s.phase ≠ phaseStart) (hp : s.phase ≠ phaseReserved)
    (hb : burstPhase s.phase = true) (hr : s.rem = 13#17) (hh : s.half = true) (hc : (s.cyc + 1#7).toNat < n)
    (hf : ∀ t, t.phase = s.phase → t.rem = 1#17 → phaseTick t = burstTick n f (beginTick t)) :
    Leads 13 s (burstAt false (record false 13 s.wave) (s.cyc + 1#7) false 13#17 s) := by
  have h := ticks_half n f s hs hp hb hr hf
  rw [burstStep_low _ _ (passed (!s.half) 13 s) hh hc] at h
  simpa only [passed, hh, burstAt, Bool.not_true] using h

theorem ticks_done (n : Nat) (f : State → State) (s : State) (hs : s.phase ≠ phaseStart) (hp : s.phase ≠ phaseReserved)
    (hb : burstPhase s.phase = true) (hr : s.rem = 13#17) (hh : s.half = true) (hc : ¬ (s.cyc + 1#7).toNat < n)
    (hf : ∀ t, t.phase = s.phase → t.rem = 1#17 → phaseTick t = burstTick n f (beginTick t)) :
    Leads 13 s (f (burstAt false (record false 13 s.wave) (s.cyc + 1#7) true 0#17 s)) := by
  have h := ticks_half n f s hs hp hb hr hf
  rw [burstStep_done _ _ (passed (!s.half) 13 s) hh hc] at h
  have h0 : s.rem - BitVec.ofNat 17 13 = 0#17 := by rw [hr]; rfl
  simpa only [passed, hh, burstAt, Bool.not_true, h0] using h

theorem wave_emitCycles_congr (n : Nat) : ∀ s t : State, s.wave = t.wave → (emitCycles n s).wave = (emitCycles n t).wave := by
  induction n with
  | zero => exact fun _ _ h => h
  | succ n ih =>
    intro s t h
    exact ih _ _ (by simp [emit_pos, Config.halfPeriod, h])

theorem wave_emitCycles_succ (n : Nat) (s t : State) (h : t.wave = record false 13 (record true 13 s.wave)) :
    (emitCycles (n + 1) s).wave = (emitCycles n t).wave :=
  wave_emitCycles_congr n _ _ (by simp [emit_pos, Config.halfPeriod, h])

/-- A burst that has `m + 1` of its `n` cycles to go, from the first tick of a high half-cycle: the cycles of the waveform
operation, then the burst's end. -/
theorem ticks_burst (n : Nat) (f : State → State) (hn : n < 128) (m : Nat) :
    ∀ s : State, s.phase ≠ phaseStart → s.phase ≠ phaseReserved → burstPhase s.phase = true → s.rem = 13#17 →
      s.half = false → s.cyc.toNat + (m + 1) = n →
      (∀ t, t.phase = s.phase → t.rem = 1#17 → phaseTick t = burstTick n f (beginTick t)) →
      Leads (26 * (m + 1)) s (f (burstAt false (emitCycles (m + 1) s).wave (BitVec.ofNat 7 n) true 0#17 s)) := by
  induction m with
  | zero =>
    intro s hs hp hb hr hh hc hf
    have h := (ticks_high n f s hs hp hb hr hh hf).trans
      (ticks_done n f _ hs hp hb rfl rfl (by simp only [burstAt]; bv_omega) hf)
    have hc' : s.cyc + 1#7 = BitVec.ofNat 7 n := by bv_omega
    rw [wave_emitCycles_succ 0 s { s with wave := record false 13 (record true 13 s.wave) } rfl,
      show 26 * (0 + 1) = 13 + 13 from rfl]
    simpa only [burstAt, hc', emitCycles] using h
  | succ m ih =>
    intro s hs hp hb hr hh hc hf
    have h := (ticks_high n f s hs hp hb hr hh hf).trans
      (ticks_low n f _ hs hp hb rfl rfl (by simp only [burstAt]; bv_omega) hf)
    have h' := h.trans (ih _ hs hp hb rfl rfl (by simp only [burstAt]; bv_omega) hf)
    rw [show 26 * (m + 1 + 1) = 13 + 13 + 26 * (m + 1) by omega, wave_emitCycles_succ (m + 1) s
      (burstAt false (record false 13 (record true 13 s.wave)) (s.cyc + 1#7) false 13#17
        (burstAt true (record true 13 s.wave) s.cyc true 13#17 s)) rfl]
    simpa only [burstAt] using h'

end Sys2Proof.Machine
end

