-- ==== Sys2Proof/Tests/Slice0.lean ====
section
/-! SUPPORT. Tests. Expected values are those of spec/95_test_vectors.md, of the examples in the rules, or worked by hand from
the rule a comment names. -/

namespace Sys2Proof.Tests

open Sys2Proof Sys2Proof.Machine

/-- Does the outcome go on, to a state with the property? -/
def goesOn (o : Host.Outcome State Fault Refusal) (p : State → Bool) : Bool :=
  match o with
  | .next t => p t
  | .fault _ => false
  | .refused _ => false

/-- The sequencer registers, written as the vectors write them: `PHASE/CYC/HALF/REM`. -/
def registers (s : State) : PhaseCode × Cycles × Bool × Ticks := (s.phase, s.cyc, s.half, s.rem)

/-- The reset state with the sequencer registers given. -/
def sequencer (phase : PhaseCode) (cyc : Cycles) (half : Bool) (rem : Ticks) : State :=
  { State.reset with phase := phase, cyc := cyc, half := half, rem := rem }

/-- The state with the next tick's input given. -/
def withInput (rst : Bool) (a : Arrival) (s : State) : State := { s with inputs := [⟨rst, a⟩] }

/-- The state whose next tick brings the fourth byte of the group 0, 0, 0, `b`. -/
def completing (rst : Bool) (b : Byte) (s : State) : State :=
  withInput rst (.byte b) { s with held := .three 0#8 0#8 0#8 }

/-- The default packet in its wait, with `r` ticks left (V-SQ). -/
def waiting (r : Ticks) : State :=
  { sequencer phasePace 12#7 true r with
    ones := 18#6, zeros := 14#6, bitidx := 31#5, elapsed := 30712#17, resid := 69288#32 }

/-- A data bit's space in its last tick, with no bit counted before it. -/
def lastSpaceTick (cmd : Word) : State := { sequencer phaseBspace 12#7 true 1#17 with cmd := cmd }

/-! ### Well-formedness: an ill-formed term for each check -/

theorem test_wf_no_zero_burst : (Instr.emitPulses 0#7).wellFormed = false := by decide
theorem test_wf_ones_bound : (Instr.residualDelay 33#6 0#6).wellFormed = false := by decide
theorem test_wf_zeros_bound : (Instr.residualDelay 0#6 33#6).wellFormed = false := by decide
theorem test_wf_wait_bound : (Instr.paceWait 100001#17).wellFormed = false := by decide
theorem test_wf_accepts :
    (Instr.emitPulses 77#7).wellFormed = true ∧ (Instr.residualDelay 32#6 32#6).wellFormed = true
      ∧ (Instr.paceWait 100000#17).wellFormed = true := by decide

/-! ### Decoding, from words written out bit by bit -/

/-- The phase codes of R58, one after another. -/
theorem test_decode_phase :
    [0b000#3, 0b001#3, 0b010#3, 0b011#3, 0b100#3, 0b101#3, 0b110#3, 0b111#3].map decodePhase
      = [.start, .hmark, .hspace, .bmark, .bspace, .fmark, .pace, .reserved111] := by decide

/-- The symbol labels of R54. -/
theorem test_decode_symbol :
    [0b10#2, 0b01#2, 0b00#2, 0b11#2].map decodeSymbol = [.hdr, .one, .zero, .ftr] := by decide

/-- R48's pattern: yaw 0x7F, pitch 0x01, C = 1, throttle 3, trim 0xFF. -/
theorem test_decode_update :
    decode (.update 0b01111111#8 0b00000001#8 0b10000011#8 0b11111111#8)
      = .ok (.upd 0x7F#8 0x01#8 true 3#7 0xFF#8) := by rfl

/-- R53: the sentinel, and its neighbour, which is no message (R60). -/
theorem test_decode_ready :
    decode (.ready 0b10000001#8) = .ok .rdy ∧ decode (.ready 0b10000000#8) = .error (.notSentinel 0x80#8) :=
  ⟨rfl, rfl⟩

/-- R95: `upd_valid = 1` selects the write, `upd_valid = 0` none. -/
theorem test_decode_port :
    decode (.port 1#1 0x80000000#32) = .ok (.mailboxWrite 0x80000000#32)
      ∧ decode (.port 0#1 0x80000000#32) = .error .noWriteSelected :=
  ⟨rfl, rfl⟩

/-- R111: two bytes are insufficient; five give an update and leave one. -/
theorem test_decode_host_bytes :
    decodeHostBytes [0x7F#8, 0x7F#8] = .error .insufficientData
      ∧ decodeHostBytes [1#8, 2#8, 3#8, 4#8, 5#8] = .ok (.upd 1#8 2#8 false 3#7 4#8, [5#8]) :=
  ⟨rfl, rfl⟩

/-- The table's numbering: 0x7F7FFF7F as 32 bits is yaw 0x7F, pitch 0x7F, C = 1, throttle 0x7F, trim 0x7F (P3). -/
theorem test_table_update :
    decodeTableWord 32 0x7F7FFF7F = some (.upd 0x7F#8 0x7F#8 true 0x7F#7 0x7F#8) := by rfl

/-- The table's short rows at their own widths, and the refusals. -/
theorem test_table_short :
    decodeTableWord 3 4 = some .bspace ∧ decodeTableWord 2 3 = some .ftr ∧ decodeTableWord 8 129 = some .rdy
      ∧ decodeTableWord 1 1 = some (.mailboxWrite 0#32) ∧ decodeTableWord 1 0 = none ∧ decodeTableWord 8 128 = none := by
  decide

/-! ### One step of each instruction -/

/-- V-SQ, tick 0. -/
theorem test_start :
    goesOn (step State.reset) (fun t =>
      registers t == (phaseHmark, 0#7, false, 12#17) && t.irOut && !t.ready && t.cmd == 0x3F3F003F#32) = true := by
  decide

/-- V-PG, tick 12: the last high tick of the first cycle. -/
theorem test_hmark_half :
    goesOn (step (sequencer phaseHmark 0#7 false 1#17)) (fun t =>
      registers t == (phaseHmark, 0#7, true, 13#17) && t.irOut) = true := by
  decide

/-- V-PG, tick 2001: the header burst's last tick. -/
theorem test_hmark_end :
    goesOn (step (sequencer phaseHmark 76#7 true 1#17)) (fun t =>
      registers t == (phaseHspace, 77#7, true, 1998#17) && !t.irOut) = true := by
  decide

/-- V-SQ, tick 3999. -/
theorem test_hspace_end :
    goesOn (step (sequencer phaseHspace 77#7 true 1#17)) (fun t =>
      registers t == (phaseBmark, 0#7, false, 13#17) && !t.irOut) = true := by
  decide

/-- V-SE, tick 4311: bit 0 of the default command is a 0. -/
theorem test_bmark_zero :
    goesOn (step (sequencer phaseBmark 11#7 true 1#17)) (fun t =>
      registers t == (phaseBspace, 12#7, true, 288#17)) = true := by
  decide

/-- R99's example: `CMD = 0x80000000` and `BITIDX = 0` load 688. -/
theorem test_bmark_one :
    goesOn (step { sequencer phaseBmark 11#7 true 1#17 with cmd := 0x80000000#32 }) (fun t =>
      registers t == (phaseBspace, 12#7, true, 688#17)) = true := by
  decide

/-- P4, tick 104999: the first bit, a 1, is counted. -/
theorem test_bspace_one :
    goesOn (step (lastSpaceTick 0x80000000#32)) (fun t =>
      registers t == (phaseBmark, 0#7, false, 13#17) && t.ones == 1#6 && t.zeros == 0#6 && t.bitidx == 1#5) = true := by
  decide

/-- V-SQ, tick 30399: bit 31 of the default command, a 1, ends the data. -/
theorem test_bspace_last :
    goesOn (step { sequencer phaseBspace 12#7 true 1#17 with ones := 17#6, zeros := 14#6, bitidx := 31#5 }) (fun t =>
      registers t == (phaseFmark, 0#7, false, 13#17) && t.ones == 18#6 && t.zeros == 14#6 && t.bitidx == 31#5) = true := by
  decide

/-- V-SQ, tick 30711: the footer's last tick. -/
theorem test_fmark_end :
    goesOn (step { sequencer phaseFmark 11#7 true 1#17 with ones := 18#6, zeros := 14#6, bitidx := 31#5 }) (fun t =>
      registers t == (phasePace, 12#7, true, 69288#17) && t.elapsed == 30712#17 && t.resid == 69288#32
        && t.ovrCnt == 0#16) = true := by
  decide

/-- V-SQ, tick 99999: the wait's last tick. -/
theorem test_pace_wait :
    goesOn (step (waiting 1#17)) (fun t =>
      registers t == (phasePace, 12#7, true, 0#17) && !t.irOut && !t.ready) = true := by
  decide

/-- V-SQ, tick 100000: the boundary with ready; one sentinel byte goes to the host (V-HI). -/
theorem test_pace_boundary :
    goesOn (step (waiting 0#17)) (fun t =>
      registers t == (phaseHmark, 0#7, false, 12#17) && t.irOut && t.ready && t.ones == 0#6 && t.zeros == 0#6
        && t.elapsed == 30712#17 && t.hostTx == some 0x81#8) = true := by
  decide

/-- V-SQ: the reserved code gives `fault(ReservedPhase)`. -/
theorem test_reserved : step (sequencer phaseReserved 0#7 false 5#17) = .fault .reservedPhase := by rfl

/-- W4: the header is 4000 ticks, its last low run 2011 (R56). -/
theorem test_hdr :
    goesOn (exec .hdr State.reset) (fun t =>
      duration t.wave == 4000 && t.wave.head? == some ⟨false, 2011⟩ && t.wave.length == 154) = true := by
  decide +kernel

/-- V-SE: a 1 is 1000 ticks, its low run 701. -/
theorem test_one :
    goesOn (exec .one State.reset) (fun t =>
      duration t.wave == 1000 && t.wave.head? == some ⟨false, 701⟩) = true := by
  decide

/-- V-SE: a 0 is 600 ticks, its low run 301. -/
theorem test_zero :
    goesOn (exec .zero State.reset) (fun t =>
      duration t.wave == 600 && t.wave.head? == some ⟨false, 301⟩) = true := by
  decide

/-- W4: the footer is 24 levels of 13 ticks, with no space. -/
theorem test_ftr :
    goesOn (exec .ftr State.reset) (fun t =>
      duration t.wave == 312 && t.wave.head? == some ⟨false, 13⟩ && t.wave.length == 24) = true := by
  decide

/-- V-HI: 01 02 03 04 are delivered as `0x01020304`. -/
theorem test_upd :
    goesOn (exec (.upd 1#8 2#8 false 3#7 4#8) State.reset) (fun t =>
      t.mbx == 0x01020304#32 && t.mbxV && t.updPort == some 0x01020304#32 && t.cmd == 0x3F3F003F#32) = true := by
  decide

/-- R53: the sentinel byte is 129. -/
theorem test_rdy : goesOn (exec .rdy State.reset) (fun t => t.hostTx == some 129#8) = true := by decide

/-- V-PG, `n = 1`: 13 ticks high, 13 low. -/
theorem test_emit_pulses :
    goesOn (exec (.emitPulses 1#7) State.reset) (fun t => t.wave == [⟨false, 13⟩, ⟨true, 13⟩] && t.cyc == 1#7) = true := by
  decide

/-- V-PG, `n = 0`: refused (D27). -/
theorem test_emit_pulses_zero : exec (.emitPulses 0#7) State.reset = .refused .zeroCycleCount := by rfl

/-- V-SE: `ENCODE_BIT 1`. -/
theorem test_encode_bit :
    goesOn (exec (.encodeBit true) State.reset) (fun t =>
      duration t.wave == 1000 && t.ones == 0#6 && t.zeros == 0#6) = true := by
  decide

/-- W1: the default command. -/
theorem test_transmit :
    goesOn (exec (.transmit 0x3F3F003F#32) State.reset) (fun t =>
      t.ones == 18#6 && t.zeros == 14#6 && t.elapsed == 30712#17 && duration t.wave == 30712) = true := by
  decide +kernel

/-- R81: 18 and 14, and the unreachable 32 and 32. -/
theorem test_residual_delay :
    goesOn (exec (.residualDelay 18#6 14#6) State.reset) (fun t => t.resid == 69288#32) = true
      ∧ goesOn (exec (.residualDelay 32#6 32#6) State.reset) (fun t => t.resid == 54472#32) = true := by
  decide

/-- R84's example: 76488 ticks low. -/
theorem test_pace_wait_operation :
    goesOn (exec (.paceWait 76488#17) State.reset) (fun t => t.wave == [⟨false, 76488⟩] && t.rem == 0#17) = true := by
  decide

/-- R93's example: `MBX_V = 1` and `MBX = 0`. -/
theorem test_poll_update :
    goesOn (exec .pollUpdate { State.reset with mbxV := true }) (fun t => t.cmd == 0#32 && !t.mbxV) = true := by
  decide

/-- R94: the strobe. -/
theorem test_signal_ready : goesOn (exec .signalReady State.reset) (fun t => t.ready && !t.irOut) = true := by decide

/-- P4: the later write replaces the pending one. -/
theorem test_mailbox_write :
    goesOn (exec (.mailboxWrite 0x80000000#32) { State.reset with mbx := 0x01020304#32, mbxV := true }) (fun t =>
      t.mbx == 0x80000000#32 && t.mbxV && t.cmd == 0x3F3F003F#32) = true := by
  decide

/-! ### The tick around exec -/

/-- P5, tick 100000: an update delivered on the boundary tick misses its poll. -/
theorem test_boundary_update :
    goesOn (step (withInput false (.byte 0xFF#8) { waiting 0#17 with held := .three 0xFF#8 0xFF#8 0xFF#8 })) (fun t =>
      t.cmd == 0x3F3F003F#32 && t.mbxV && t.mbx == 0xFFFFFFFF#32) = true := by
  decide

/-- P6, tick 5000: a reset in a space; the update that would be delivered in the tick is ignored, and the adapter is emptied
(R131). -/
theorem test_reset_tick :
    goesOn (step (completing true 5#8 { sequencer phaseBspace 12#7 true 200#17 with zeros := 1#6, bitidx := 1#5 }))
      (fun t => registers t == (phaseStart, 0#7, false, 0#17) && t.zeros == 0#6 && !t.mbxV && !t.irOut && t.held == .zero
        && t.cmd == 0x3F3F003F#32) = true := by
  decide

/-- V-HI: a stray byte shifts the grouping: AA 01 02 03 are delivered as `0xAA010203`. -/
theorem test_adapter :
    (takeBytes [0xAA#8, 1#8, 2#8] State.reset).held = .three 0xAA#8 1#8 2#8
      ∧ (takeBytes [0xAA#8, 1#8, 2#8] State.reset).mbxV = false
      ∧ (takeBytes [0xAA#8, 1#8, 2#8, 3#8] State.reset).mbx = 0xAA010203#32
      ∧ (takeBytes [0xAA#8, 1#8, 2#8, 3#8] State.reset).held = .zero := by
  decide

/-- V-PA, the clamp: `TARGET_PERIOD = 30000` with 18 ones counts an overrun, 5 to 6. -/
theorem test_overrun :
    (paceEntryFor 30000 { waiting 0#17 with ovrCnt := 5#16 }).ovrCnt = 6#16
      ∧ (paceEntryFor 30000 (waiting 0#17)).rem = 0#17
      ∧ (paceEntryFor 30000 (waiting 0#17)).resid = BitVec.ofInt 32 (-712) := by
  decide

/-- V-PA: a residual of 0 is no overrun; at 0xFFFF the counter saturates. -/
theorem test_overrun_edges :
    (paceEntryFor 30712 (waiting 0#17)).ovrCnt = 0#16
      ∧ (paceEntryFor 30711 { waiting 0#17 with ovrCnt := 0xFFFF#16 }).ovrCnt = 0xFFFF#16 := by
  decide

/-- R77 on one symbol: the decoder reads a 1 and leaves the rest. -/
theorem test_read_symbol : readSymbols 1 (symbol true ++ footer) = some ([true], footer) := by decide

/-! ### Placed instructions run in the next step -/

theorem test_place_reserved : step (State.reset.withFetchWord 8 7) = .fault .reservedPhase := by rfl

theorem test_place_pace :
    goesOn (step (State.reset.withFetchWord 8 6)) (fun t => t.phase == phasePace && !t.irOut) = true := by decide

theorem test_place_update :
    goesOn (step (State.reset.withFetchWord 32 0x11223344)) (fun t => t.mbx == 0x11223344#32 && t.mbxV) = true := by decide

theorem test_place_port :
    goesOn (step (State.reset.withFetchWord 1 1)) (fun t => t.mbx == 0#32 && t.mbxV) = true := by decide

theorem test_place_ready :
    goesOn (step (State.reset.withFetchWord 8 129)) (fun t => t.ready && t.hostTx == some 129#8) = true := by decide

/-! ### Witnesses: the hypotheses of the statements are met -/

/-- DecodeOfEncode. -/
theorem witness_encode :
    (Instr.upd 0xFF#8 0#8 true 0x7F#7 0xFF#8).wellFormed = true
      ∧ (Instr.upd 0xFF#8 0#8 true 0x7F#7 0xFF#8).format ≠ .operation := by decide

/-- EncodeOfDecode. -/
theorem witness_decode : decode (.port 1#1 0xFFFFFFFF#32) = .ok (.mailboxWrite 0xFFFFFFFF#32) := by rfl

/-- ResetTickLoadsResetState, OutputLevelRule, ReadyAndCounterPorts, AdapterGroupsFours and MailboxWriteRule, with a reset: a
byte arrives in the reset tick, with no byte held before it and as the fourth of a group. -/
theorem witness_reset_input :
    (nextInput (withInput true (.byte 7#8) (waiting 5#17))).rst = true
      ∧ nextInput (withInput true (.byte 7#8) (waiting 5#17)) = ⟨true, .byte 7#8⟩
      ∧ nextInput (completing true 7#8 (waiting 5#17)) = ⟨true, .byte 7#8⟩ := by decide

/-- StepRunsDecodedInstruction, and the clauses with no reset of OutputLevelRule and ReadyAndCounterPorts. -/
theorem witness_tick_input :
    (nextInput (waiting 5#17)).rst = false ∧ decode (.phase (waiting 5#17).phase) = .ok .pace
      ∧ (waiting 5#17).phase ≠ 0b111#3 := ⟨rfl, rfl, by decide⟩

/-- OnlyReservedPhaseStops. -/
theorem witness_reserved :
    (nextInput (sequencer phaseReserved 0#7 false 5#17)).rst = false
      ∧ (sequencer phaseReserved 0#7 false 5#17).phase = 0b111#3
      ∧ (∃ t, step State.reset = .next t) ∧ State.reset.phase ≠ 0b111#3 := ⟨rfl, rfl, ⟨_, rfl⟩, by decide⟩

/-- StepKeepsInvariant and InvariantTickCompletesWithoutFreeValue: the invariant holds in the wait of the default packet. -/
theorem witness_invariant :
    Invariant (waiting 69288#17) ∧ ∃ t, step (waiting 69288#17) = .next t := by
  refine ⟨⟨?_, ?_, ?_, ?_, ?_, ?_, ?_, ?_, ?_, ?_⟩, ⟨_, rfl⟩⟩ <;> decide

/-- RunningPhaseTicks, at the least countdown of each clause. -/
theorem witness_running :
    2 ≤ (sequencer phaseHmark 0#7 false 2#17).rem.toNat ∧ 1 ≤ (waiting 1#17).rem.toNat := by decide

/-- BurstHalfCycles: the high half; the last low half before the burst's end, in the header and in a bit or footer. -/
theorem witness_half_cycles :
    (sequencer phaseHmark 0#7 false 1#17).rem = 1#17 ∧ (sequencer phaseHmark 0#7 false 1#17).half = false
      ∧ (sequencer phaseHmark 75#7 true 1#17).half = true
      ∧ ((sequencer phaseHmark 75#7 true 1#17).cyc + 1#7).toNat < 77
      ∧ ((sequencer phaseBmark 10#7 true 1#17).cyc + 1#7).toNat < 12 := by decide

/-- MarkAndHeaderSpaceEnds and FooterEndEntersPace: the bursts' last ticks, before a 1 and before a 0. -/
theorem witness_mark_ends :
    77 ≤ ((sequencer phaseHmark 76#7 true 1#17).cyc + 1#7).toNat
      ∧ 12 ≤ ((sequencer phaseBmark 11#7 true 1#17).cyc + 1#7).toNat
      ∧ (sequencer phaseFmark 11#7 true 1#17).rem = 1#17 ∧ (sequencer phaseFmark 11#7 true 1#17).half = true
      ∧ (lastSpaceTick 0x80000000#32).cmd.getLsbD (31 - (lastSpaceTick 0x80000000#32).bitidx.toNat) = true
      ∧ State.reset.cmd.getLsbD (31 - State.reset.bitidx.toNat) = false := by decide

/-- BitSpaceEndTallies: a 1 with `ONES` below 63, a 0 with `ZEROS` below 63. -/
theorem witness_bit_space :
    (lastSpaceTick 0x80000000#32).rem = 1#17
      ∧ (lastSpaceTick 0x80000000#32).cmd.getLsbD (31 - (lastSpaceTick 0x80000000#32).bitidx.toNat) = true
      ∧ (lastSpaceTick 0x80000000#32).ones ≠ 63#6
      ∧ (lastSpaceTick 0#32).rem = 1#17
      ∧ (lastSpaceTick 0#32).cmd.getLsbD (31 - (lastSpaceTick 0#32).bitidx.toNat) = false
      ∧ (lastSpaceTick 0#32).zeros ≠ 63#6 := by decide

/-- BoundaryTickStartsPacket, BoundaryPollMissesSameTickWrite. -/
theorem witness_boundary :
    (waiting 0#17).rem = 0#17 ∧ atBoundary (waiting 0#17) = true ∧ atBoundary State.reset = true
      ∧ (nextInput (completing false 7#8 (waiting 0#17))).rst = false
      ∧ atBoundary (completing false 7#8 (waiting 0#17)) = true
      ∧ (completing false 7#8 (waiting 0#17)).held = .three 0#8 0#8 0#8
      ∧ (nextInput (completing false 7#8 (waiting 0#17))).arrival = .byte 7#8 := by decide

/-- PhaseTickFrame: members of the list, one that is not BSPACE and one that is not FMARK. -/
theorem witness_frame :
    Instr.fmark ∈ [Instr.hmark, .hspace, .bmark, .bspace, .fmark] ∧ Instr.fmark ≠ .bspace
      ∧ Instr.bspace ∈ [Instr.hmark, .hspace, .bmark, .bspace, .fmark] ∧ Instr.bspace ≠ .fmark := by decide

/-- CommandStaysBetweenBoundaries and EnvironmentCannotDisturbTick: off the boundary, no reset in either state's input. -/
theorem witness_off_boundary :
    (waiting 1#17).phase ≠ 0b111#3 ∧ atBoundary (waiting 1#17) = false ∧ (nextInput (waiting 1#17)).rst = false
      ∧ (nextInput (completing false 7#8 State.reset)).rst = false := by decide

/-- SentinelByteRule and OverrunCounterStaysZero; MailboxWriteRule's first clause; EmptyMailboxValueUnobservable. -/
theorem witness_mailbox :
    (completing false 7#8 (waiting 1#17)).held = .three 0#8 0#8 0#8
      ∧ nextInput (completing false 7#8 (waiting 1#17)) = ⟨false, .byte 7#8⟩
      ∧ (completing false 7#8 (waiting 1#17)).phase ≠ 0b111#3
      ∧ (waiting 1#17).mbxV = false ∧ (waiting 1#17).ovrCnt = 0#16 := by decide

/-- PendingUpdateReachesNextPacket: an update pending in the wait's last tick. -/
theorem witness_pending :
    ∃ u, run 1 { waiting 1#17 with mbxV := true } = .next u ∧ atBoundary u = true ∧ (nextInput u).rst = false
      ∧ ∀ k v, k < 1 → run k { waiting 1#17 with mbxV := true } = .next v →
          atBoundary v = false ∧ (nextInput v).rst = false ∧ delivers (nextInput v).arrival v.held = false := by
  refine ⟨_, rfl, by decide, by decide, fun k v hk h => ?_⟩
  obtain rfl : k = 0 := by omega
  cases h
  decide

/-- AdapterGroupsFours: a state for each count of held bytes. -/
theorem witness_held :
    State.reset.held = .zero ∧ (takeBytes [1#8] State.reset).held = .one 1#8
      ∧ (takeBytes [1#8, 2#8] State.reset).held = .two 1#8 2#8
      ∧ (takeBytes [1#8, 2#8, 3#8] State.reset).held = .three 1#8 2#8 3#8 := by decide

/-- GroupDeliveryTick: the fourth byte of a group, and a tick with nothing delivered. -/
theorem witness_group :
    (nextInput (withInput false (.byte 4#8) (takeBytes [1#8, 2#8, 3#8] (waiting 0#17)))).rst = false
      ∧ (withInput false (.byte 4#8) (takeBytes [1#8, 2#8, 3#8] (waiting 0#17))).phase ≠ 0b111#3
      ∧ (withInput false (.byte 4#8) (takeBytes [1#8, 2#8, 3#8] (waiting 0#17))).held = .three 1#8 2#8 3#8
      ∧ (nextInput (withInput false (.byte 4#8) (takeBytes [1#8, 2#8, 3#8] (waiting 0#17)))).arrival = .byte 4#8
      ∧ delivers (nextInput (withInput false (.byte 4#8) (takeBytes [1#8, 2#8] (waiting 0#17)))).arrival
          (withInput false (.byte 4#8) (takeBytes [1#8, 2#8] (waiting 0#17))).held = false := by decide

/-- OnlyCompleteGroupsAreDelivered: a step that delivers a group; one that keeps a pending update; one that sends a byte to
the host. -/
theorem witness_deliveries :
    (∃ t, step (completing false 7#8 (waiting 1#17)) = .next t ∧ t.updPort = some 7#32)
      ∧ (∃ t, step { waiting 1#17 with mbxV := true } = .next t ∧ t.updPort = none ∧ t.mbxV = true)
      ∧ ∃ t, step (waiting 0#17) = .next t ∧ t.hostTx = some 129#8 :=
  ⟨⟨_, rfl, by decide⟩, ⟨_, rfl, by decide, by decide⟩, ⟨_, rfl, by decide⟩⟩

/-- AdapterRunsDecodedUpdates: a stream with exactly one group, and one that is a byte short. -/
theorem witness_stream :
    State.reset.held = .zero
      ∧ decodeHostBytes [1#8, 2#8, 3#8, 4#8] = .ok (.upd 1#8 2#8 false 3#7 4#8, [])
      ∧ decodeHostBytes [1#8, 2#8, 3#8] = .error .insufficientData := ⟨rfl, rfl, rfl⟩

/-- BoundaryOperations: a mailbox with and without an update. -/
theorem witness_poll : { State.reset with mbxV := true }.mbxV = true ∧ State.reset.mbxV = false := by decide

/-- EmitPulsesBurst and PaceWaitHoldsLow. -/
theorem witness_counts : 1#7 ≠ 0#7 ∧ 127#7 ≠ 0#7 ∧ (0#17 : Ticks) = 0#17 := by decide

/-- RecordStaysCanonical: a canonical record of two runs, and an instruction that goes on. -/
theorem witness_record :
    waveWf { State.reset with wave := [⟨false, 13⟩, ⟨true, 13⟩] }.wave = true
      ∧ ∃ t, exec .zero { State.reset with wave := [⟨false, 13⟩, ⟨true, 13⟩] } = .next t := ⟨by decide, ⟨_, rfl⟩⟩

/-- PacerClosedForms, PacerRanges, ResidualStrictlyDecreasing and OverrunCounterStaysZero: counts at the ends of their
ranges. -/
theorem witness_counts_32 :
    (32#6 : Count).toNat + (0#6 : Count).toNat = 32 ∧ (0#6 : Count).toNat + (32#6 : Count).toNat = 32
      ∧ (32#6 : Count).toNat ≤ 32 ∧ (62#6 : Count).toNat < 63 ∧ 1 ≤ (1#6 : Count).toNat
      ∧ (31#6 : Count).toNat + (1#6 : Count).toNat = 32 ∧ (waiting 0#17).ones.toNat + (waiting 0#17).zeros.toNat = 32 := by
  decide

/-- OverrunClampAndCount: residuals -1 and 0 for the default packet's counts, both below 131072. -/
theorem witness_clamp :
    residualOf 30711 (waiting 0#17).ones (waiting 0#17).zeros = -1
      ∧ residualOf 30712 (waiting 0#17).ones (waiting 0#17).zeros = 0 := by decide

/-- PacketCyclePeriod, PacketOffsets, PacketCycleWaveform, OutputTraceIsPacket and TicksRefineTransmit: the boundary after reset, and the boundary after a wait
with an update pending and another arriving. -/
theorem witness_cycle :
    (atBoundary State.reset = true ∧ noResetWithin 100000 State.reset)
      ∧ atBoundary (completing false 7#8 { waiting 0#17 with mbxV := true }) = true
      ∧ noResetWithin 100000 (completing false 7#8 { waiting 0#17 with mbxV := true }) := by
  refine ⟨⟨by decide, fun i h => by cases h⟩, by decide, fun i h => ?_⟩
  have h' := List.mem_of_mem_take h
  simp only [completing, withInput, List.mem_singleton] at h'
  rw [h']

end Sys2Proof.Tests
end

section
/-! The record of `ir_out` stays canonical (O41). Within `exec` only `emit` writes the record, and `waveWf_record` says that it keeps
it canonical; so each operation that emits keeps it, and every other operation leaves the record as it stands. -/

namespace Sys2Proof.Machine

/-- The state's record of `ir_out` has no empty run, and neighbouring runs differ in level. -/
abbrev CanonicalRecord (s : State) : Prop := waveWf s.wave = true

theorem canonicalRecord_of_wave_eq {s t : State} (hw : t.wave = s.wave) (hs : CanonicalRecord s) : CanonicalRecord t := by
  rw [CanonicalRecord, hw]
  exact hs

/-! ### The phases' ends leave the record -/

@[simp] theorem hmarkDone_wave (s : State) : (hmarkDone s).wave = s.wave := rfl

@[simp] theorem hspaceEnd_wave (s : State) : (hspaceEnd s).wave = s.wave := rfl

@[simp] theorem bmarkDone_wave (s : State) : (bmarkDone s).wave = s.wave := rfl

@[simp] theorem bspaceEnd_wave (s : State) : (bspaceEnd s).wave = s.wave := by
  unfold bspaceEnd
  dsimp only
  split
  · exact tally_wave _ s
  · exact tally_wave _ s

/-! ### The output operations and the tick -/

section
variable {s : State} (hs : CanonicalRecord s)
include hs

/-- R11, by `waveWf_record`: every operation that emits is built from this one. -/
theorem emit_keeps_canonicalRecord (l : Bool) (n : Nat) : CanonicalRecord (emit l n s) := by
  by_cases hn : n = 0
  · simpa only [hn, emit_zero] using hs
  · rw [emit_pos l n hn]
    exact waveWf_record l n s.wave hs

theorem holdLow_keeps_canonicalRecord (d : Nat) : CanonicalRecord (holdLow d s) :=
  emit_keeps_canonicalRecord hs false d

/-- A counted tick (R91 steps 3 and 4) whose phase's end leaves the record. -/
theorem countTick_keeps_canonicalRecord (l : Bool) (f : State → State) (hf : ∀ t, (f t).wave = t.wave) :
    CanonicalRecord (countTick l f s) := by
  have passing : CanonicalRecord (decRem (emit l 1 s)) :=
    canonicalRecord_of_wave_eq (decRem_wave _) (emit_keeps_canonicalRecord hs l 1)
  exact countTick_keeps CanonicalRecord l f s passing fun t => canonicalRecord_of_wave_eq (hf t)

/-- A burst's tick (R63, R96) whose burst's end leaves the record. -/
theorem burstTick_keeps_canonicalRecord (n : Nat) (f : State → State) (hf : ∀ t, (f t).wave = t.wave) :
    CanonicalRecord (burstTick n f s) := by
  have passing : CanonicalRecord (decRem (emit (!s.half) 1 s)) :=
    canonicalRecord_of_wave_eq (decRem_wave _) (emit_keeps_canonicalRecord hs (!s.half) 1)
  exact burstTick_keeps CanonicalRecord n f s passing (fun _ _ _ _ ht => ht) fun t => canonicalRecord_of_wave_eq (hf t)

theorem hmarkTick_keeps_canonicalRecord : CanonicalRecord (hmarkTick s) :=
  burstTick_keeps_canonicalRecord hs _ _ hmarkDone_wave

end

theorem emitCycles_keeps_canonicalRecord (n : Nat) {s : State} (hs : CanonicalRecord s) :
    CanonicalRecord (emitCycles n s) := by
  induction n generalizing s with
  | zero => exact hs
  | succ n ih => exact ih (emit_keeps_canonicalRecord (emit_keeps_canonicalRecord hs true _) false _)

/-! ### The operations run to their end -/

section
variable {s : State} (hs : CanonicalRecord s)
include hs

theorem emitPulses_keeps_canonicalRecord (n : Nat) : CanonicalRecord (emitPulses n s) :=
  emitCycles_keeps_canonicalRecord n hs

theorem dataSymbol_keeps_canonicalRecord (b : Bool) : CanonicalRecord (dataSymbol b s) :=
  holdLow_keeps_canonicalRecord (emitPulses_keeps_canonicalRecord hs _) _

theorem headerSymbol_keeps_canonicalRecord : CanonicalRecord (headerSymbol s) :=
  holdLow_keeps_canonicalRecord (emitPulses_keeps_canonicalRecord hs _) _

theorem footerSymbol_keeps_canonicalRecord : CanonicalRecord (footerSymbol s) :=
  emitPulses_keeps_canonicalRecord hs _

end

theorem frameBits_keeps_canonicalRecord (cmd : Word) (is : List BitIndex) {s : State} (hs : CanonicalRecord s) :
    CanonicalRecord (frameBits cmd is s) := by
  induction is generalizing s with
  | nil => exact hs
  | cons i is ih =>
    have indexed : CanonicalRecord { s with bitidx := i } := hs
    exact ih (canonicalRecord_of_wave_eq (tally_wave _ _) (dataSymbol_keeps_canonicalRecord indexed _))

/-- The record of `TRANSMIT` (R68) is that of its symbols; `ELAPSED` does not enter it. -/
theorem transmit_wave (cmd : Word) (s : State) :
    (transmit cmd s).wave = (footerSymbol (frameBits cmd bitIndexes (headerSymbol (clearStatistics s)))).wave := by
  simp only [transmit]

theorem transmit_keeps_canonicalRecord (cmd : Word) {s : State} (hs : CanonicalRecord s) :
    CanonicalRecord (transmit cmd s) := by
  have cleared : CanonicalRecord (clearStatistics s) := hs
  have header := headerSymbol_keeps_canonicalRecord cleared
  have bits := frameBits_keeps_canonicalRecord cmd bitIndexes header
  have packet := footerSymbol_keeps_canonicalRecord bits
  exact canonicalRecord_of_wave_eq (transmit_wave cmd s) packet

/-! ### The boundary tick -/

/-- The boundary actions (R92) emit nothing; the header's first tick follows them. -/
theorem hmarkTick_boundary_keeps_canonicalRecord {s : State} (hs : CanonicalRecord s) :
    CanonicalRecord (hmarkTick (boundary s)) :=
  hmarkTick_keeps_canonicalRecord (canonicalRecord_of_wave_eq (boundary_wave s) hs)

theorem execPace_keeps_canonicalRecord {s t : State} (hs : CanonicalRecord s) (h : execPace s = .next t) :
    CanonicalRecord t := by
  have begun : CanonicalRecord (beginTick s) := hs
  have strobed : CanonicalRecord (signalReady (beginTick s)) := hs
  unfold execPace at h
  split at h
  · cases h
    exact hmarkTick_boundary_keeps_canonicalRecord strobed
  · cases h
    exact countTick_keeps_canonicalRecord begun false _ fun _ => rfl

theorem execEmitPulses_keeps_canonicalRecord {n : Cycles} {s t : State} (hs : CanonicalRecord s)
    (h : execEmitPulses n s = .next t) : CanonicalRecord t := by
  unfold execEmitPulses at h
  split at h
  · cases h
  · cases h
    exact emitPulses_keeps_canonicalRecord hs _

/-- Settles O41, instruction by instruction: what emits keeps the record canonical, the rest leaves it as it stands, and the
reserved code answers no next state. -/
theorem recordStaysCanonical : Obligations.RecordStaysCanonical := by
  intro i s t hs h
  have begun : CanonicalRecord (beginTick s) := hs
  cases i with
  | start => cases h; exact hmarkTick_boundary_keeps_canonicalRecord begun
  | hmark => cases h; exact hmarkTick_keeps_canonicalRecord begun
  | hspace => cases h; exact countTick_keeps_canonicalRecord begun _ _ hspaceEnd_wave
  | bmark => cases h; exact burstTick_keeps_canonicalRecord begun _ _ bmarkDone_wave
  | bspace => cases h; exact countTick_keeps_canonicalRecord begun _ _ bspaceEnd_wave
  | fmark => cases h; exact burstTick_keeps_canonicalRecord begun _ _ paceEntry_wave
  | pace => exact execPace_keeps_canonicalRecord hs h
  | reserved111 => cases h
  | hdr => cases h; exact headerSymbol_keeps_canonicalRecord hs
  | one => cases h; exact dataSymbol_keeps_canonicalRecord hs true
  | zero => cases h; exact dataSymbol_keeps_canonicalRecord hs false
  | ftr => cases h; exact footerSymbol_keeps_canonicalRecord hs
  | upd _ _ _ _ _ => cases h; exact hs
  | rdy => cases h; exact hs
  | emitPulses _ => exact execEmitPulses_keeps_canonicalRecord hs h
  | encodeBit b => cases h; exact dataSymbol_keeps_canonicalRecord hs b
  | transmit cmd => cases h; exact transmit_keeps_canonicalRecord cmd hs
  | residualDelay _ _ => cases h; exact hs
  | paceWait _ => cases h; exact holdLow_keeps_canonicalRecord hs _
  | pollUpdate => cases h; exact canonicalRecord_of_wave_eq (pollUpdate_wave s) hs
  | signalReady => cases h; exact hs
  | mailboxWrite _ => cases h; exact hs

end Sys2Proof.Machine
end

section
/-! What a phase's tick writes: at the boundary the state it leads to, off the boundary the sequencer's registers, the pacer's
results and the output's next tick. The statements about resets, ports, `CMD` and the mailbox (O6, O7, O22, O25, O28) follow. -/

namespace Sys2Proof.Machine

/-! ### The registers a phase's tick may write -/

/-- The state with the statistics, the sequencer's registers, the pacer's results and the draw counter taken from another. -/
def withSequencerOf (e s : State) : State :=
  { s with
    ones := e.ones, zeros := e.zeros, bitidx := e.bitidx, phase := e.phase, cyc := e.cyc, half := e.half, rem := e.rem
    elapsed := e.elapsed, resid := e.resid, draws := e.draws }

theorem tally_eq_withSequencerOf (b : Bool) (s : State) : tally b s = withSequencerOf (tally b s) s := by
  cases b <;> rfl

theorem bspaceEnd_eq_withSequencerOf (s : State) : bspaceEnd s = withSequencerOf (bspaceEnd s) s := by
  unfold bspaceEnd
  rw [tally_eq_withSequencerOf]
  dsimp only
  split <;> rfl

theorem paceEntry_eq_withSequencerOf (s : State) : paceEntry s = withSequencerOf (paceEntry s) s := by
  rw [paceEntry_eq]
  rfl

theorem decRem_eq_withSequencerOf (s : State) : decRem s = withSequencerOf (decRem s) s := by
  unfold decRem
  split <;> rfl

/-- Off the boundary a tick writes the output (R96), what `beginTick` writes, and registers of `withSequencerOf`. -/
theorem phaseTick_off_boundary (s : State) (h : atBoundary s = false) :
    phaseTick s = withSequencerOf (phaseTick s) (emit (burstPhase s.phase && !s.half) 1 (beginTick s)) := by
  refine phaseTick_keeps (fun t => t = withSequencerOf t (emit (burstPhase s.phase && !s.half) 1 (beginTick s))) s
    (fun hb => ?_) (fun _ => decRem_eq_withSequencerOf _) (fun _ t c k r ht => ?_)
    fun _ t ht => ⟨?_, ?_, ?_, ?_, ?_⟩
  · simp [h] at hb
  · rw [ht]; rfl
  · rw [ht]; rfl
  · rw [ht]; rfl
  · rw [ht]; rfl
  · rw [bspaceEnd_eq_withSequencerOf, ht]; rfl
  · rw [paceEntry_eq_withSequencerOf, ht]; rfl

/-- The boundary tick (R92): the poll, the cleared statistics, and the header's first tick. -/
theorem phaseTick_boundary (s : State) (h : atBoundary s = true) :
    phaseTick s = { s with
      cmd := polledCommand s, mbxV := false, ones := 0#6, zeros := 0#6, bitidx := 0#5
      phase := phaseHmark, cyc := 0#7, half := false, rem := 12#17, irOut := true
      ready := s.phase == phasePace, ovrCount := s.ovrCnt, wave := record true 1 s.wave } := by
  simp only [phaseTick, h, if_true, hmarkTick_boundary]
  rfl

/-! ### The fields of a phase's tick -/

/-- R94: the strobe is raised by the boundary that ends a wait, and by no other tick. -/
theorem phaseTick_ready_iff (s : State) :
    (phaseTick s).ready = true ↔ s.phase = phasePace ∧ s.rem = 0#17 := by
  cases h : atBoundary s
  · have ready : (phaseTick s).ready = false := congrArg State.ready (phaseTick_off_boundary s h)
    have noWaitEnd : ¬(s.phase = phasePace ∧ s.rem = 0#17) := by
      rintro ⟨phase, rem⟩
      simp [atBoundary, phase, rem] at h
    simp [ready, noWaitEnd]
  · rw [phaseTick_boundary s h]
    rcases Bool.or_eq_true_iff.mp h with start | waitEnd
    · simp [eq_of_beq start]
    · obtain ⟨phase, rem⟩ := Bool.and_eq_true_iff.mp waitEnd
      simp [eq_of_beq phase, eq_of_beq rem]

/-- R24: the port shows the counter as the tick finds it. -/
theorem phaseTick_ovrCount (s : State) : (phaseTick s).ovrCount = s.ovrCnt := by
  cases h : atBoundary s
  · exact (congrArg State.ovrCount (phaseTick_off_boundary s h) :)
  · rw [phaseTick_boundary s h]

/-- R87: with this hardware's constants no tick counts an overrun. -/
theorem phaseTick_ovrCnt (s : State) : (phaseTick s).ovrCnt = s.ovrCnt := by
  cases h : atBoundary s
  · exact (congrArg State.ovrCnt (phaseTick_off_boundary s h) :)
  · rw [phaseTick_boundary s h]

theorem phaseTick_wave (s : State) : ∃ l, (phaseTick s).wave = record l 1 s.wave := by
  cases h : atBoundary s
  · exact ⟨_, congrArg State.wave (phaseTick_off_boundary s h)⟩
  · exact ⟨true, by rw [phaseTick_boundary s h]⟩

theorem phaseTick_cmd_off_boundary (s : State) (h : atBoundary s = false) : (phaseTick s).cmd = s.cmd :=
  (congrArg State.cmd (phaseTick_off_boundary s h) :)

/-! ### An empty mailbox's value -/

/-- With an empty mailbox a phase's tick carries the value of `MBX` along: off the boundary it reads nothing outside the block,
and the boundary's poll (R93) takes `CMD`. -/
theorem phaseTick_of_empty_mailbox (w : Word) (s : State) (hv : s.mbxV = false) :
    phaseTick { s with mbx := w } = { phaseTick s with mbx := w } := by
  cases h : atBoundary s
  · have outside := phaseTick_withOutsideOf { s with mbx := w } s h
    have frame := phaseTick_off_boundary s h
    change phaseTick { s with mbx := w } = _ at outside
    rw [outside, frame]
    rfl
  · rw [phaseTick_boundary s h, phaseTick_boundary { s with mbx := w } h]
    simp [polledCommand, hv]

/-- The adapter's part of a tick does not read `MBX`. -/
theorem adapterTick_of_mbx (a : Arrival) (w : Word) (s : State) :
    { adapterTick a { s with mbx := w } with mbx := (adapterTick a s).mbx } = adapterTick a s := by
  have arrives : ∀ t : State, { arrive a { t with mbx := w } with mbx := (arrive a t).mbx } = arrive a t := by
    intro t
    cases a with
    | nothing => rfl
    | byte b =>
      simp only [arrive, takeByte]
      cases t.held <;> rfl
  unfold adapterTick
  dsimp only
  split
  · exact arrives (sendReadyByte s)
  · exact arrives s

/-! ### The statements -/

/-- Settles O6, from the definition of the reset state. -/
theorem resetStateValues : Obligations.ResetStateValues := by
  exact ⟨rfl, rfl, rfl, rfl, rfl, rfl, rfl, rfl, rfl, rfl, rfl, rfl, rfl, rfl, rfl, rfl⟩

/-- Settles O7: the tick is `resetTick`, which keeps of the state only the coming inputs, the record and the draws. -/
theorem resetTickLoadsResetState : Obligations.ResetTickLoadsResetState := by
  intro s h
  exact ⟨resetTick s, step_reset s h, rfl, rfl, rfl, rfl, rfl, rfl, rfl, rfl, rfl, rfl, rfl, rfl, rfl, rfl, rfl, rfl⟩

/-- Settles O22: the adapter's part of the tick leaves both ports as the phase's tick drives them. -/
theorem readyAndCounterPorts : Obligations.ReadyAndCounterPorts := by
  intro s
  constructor
  · intro h
    exact ⟨resetTick s, step_reset s h, rfl, rfl⟩
  · intro h hp
    refine ⟨_, step_phase s h hp, ?_, ?_⟩
    · rw [adapterTick_ready, phaseTick_ready_iff, openTick_phase, openTick_rem]
    · rw [adapterTick_ovrCount, phaseTick_ovrCount, openTick_ovrCnt]

/-- Settles O25: off the boundary `CMD` is not among what the phase's tick writes, and the adapter does not write it. -/
theorem commandStaysBetweenBoundaries : Obligations.CommandStaysBetweenBoundaries := by
  intro s h hp hb
  refine ⟨_, step_phase s h hp, ?_⟩
  rw [adapterTick_cmd, phaseTick_cmd_off_boundary (openTick s) hb, openTick_cmd]

/-- Settles O28: a reset tick drops `MBX`; in any other tick the phase carries it along and the adapter does not read it. -/
theorem emptyMailboxValueUnobservable : Obligations.EmptyMailboxValueUnobservable := by
  intro s w hp hv
  cases h : (nextInput s).rst
  · have tick : step { s with mbx := w } =
        .next (adapterTick (nextInput s).arrival { phaseTick (openTick s) with mbx := w }) := by
      rw [← phaseTick_of_empty_mailbox w (openTick s) hv]
      exact step_phase { s with mbx := w } h hp
    exact ⟨_, _, step_phase s h hp, tick, adapterTick_of_mbx ..⟩
  · exact ⟨_, _, step_reset s h, step_reset { s with mbx := w } h, rfl⟩

end Sys2Proof.Machine
end

section
/-! The invariant of R33 holds at reset and every step keeps it (O10, O11). It is put as one clause, the one of the phase the state
is in, with the overrun counter at 0 and the record canonical; a tick leads from a phase's clause to the same or the next phase's. -/

namespace Sys2Proof.Machine

/-! ### The invariant by phase -/

/-- What R33 says of a state in the phase it is in. -/
inductive PhaseClause (s : State) : Prop where
  | start (phase : s.phase = phaseStart)
  | hmark (phase : s.phase = phaseHmark) (counts : countedBits 0 s) (first : s.bitidx = 0#5) (running : burstRunning 77 s)
  | hspace (phase : s.phase = phaseHspace) (counts : countedBits 0 s) (first : s.bitidx = 0#5) (running : counting 1998 s)
  | bmark (phase : s.phase = phaseBmark) (counts : countedBits s.bitidx.toNat s) (running : burstRunning 12 s)
  | bspace (phase : s.phase = phaseBspace) (counts : countedBits s.bitidx.toNat s)
      (running : counting (symbolSpace (dataBit s.cmd s.bitidx)) s)
  | fmark (phase : s.phase = phaseFmark) (counts : countedBits 32 s) (running : burstRunning 12 s)
  | pace (phase : s.phase = phasePace) (counts : countedBits 32 s) (wait : s.rem.toNat ≤ 76488 - 400 * popcount s.cmd)
      (elapsed : s.elapsed.toNat = 23512 + 400 * popcount s.cmd) (resid : s.resid.toInt = 76488 - 400 * popcount s.cmd)

theorem Invariant.phaseClause {s : State} (h : Invariant s) : PhaseClause s := by
  rcases phase_cases s.phase with hp | hp | hp | hp | hp | hp | hp | hp
  · exact .start hp
  · obtain ⟨counts, first, running⟩ := h.hmark hp
    exact .hmark hp counts first running
  · obtain ⟨counts, first, running⟩ := h.hspace hp
    exact .hspace hp counts first running
  · obtain ⟨counts, running⟩ := h.bmark hp
    exact .bmark hp counts running
  · obtain ⟨counts, running⟩ := h.bspace hp
    exact .bspace hp counts running
  · obtain ⟨counts, running⟩ := h.fmark hp
    exact .fmark hp counts running
  · obtain ⟨counts, wait⟩ := h.pace hp
    obtain ⟨elapsed, resid⟩ := h.paceResults hp
    exact .pace hp counts wait elapsed resid
  · exact absurd hp h.notReserved

/-- Of the invariant's clauses those of the other phases say nothing. -/
theorem PhaseClause.invariant {s : State} (h : PhaseClause s) (noOverrun : s.ovrCnt = 0#16) (canonical : CanonicalRecord s) :
    Invariant s := by
  cases h with
  | start phase =>
    constructor
    all_goals simp [phase, noOverrun, canonical]
  | hmark phase counts first running =>
    constructor
    case hmark => exact fun _ => ⟨counts, first, running⟩
    all_goals simp [phase, noOverrun, canonical]
  | hspace phase counts first running =>
    constructor
    case hspace => exact fun _ => ⟨counts, first, running⟩
    all_goals simp [phase, noOverrun, canonical]
  | bmark phase counts running =>
    constructor
    case bmark => exact fun _ => ⟨counts, running⟩
    all_goals simp [phase, noOverrun, canonical]
  | bspace phase counts running =>
    constructor
    case bspace => exact fun _ => ⟨counts, running⟩
    all_goals simp [phase, noOverrun, canonical]
  | fmark phase counts running =>
    constructor
    case fmark => exact fun _ => ⟨counts, running⟩
    all_goals simp [phase, noOverrun, canonical]
  | pace phase counts wait elapsed resid =>
    constructor
    case pace => exact fun _ => ⟨counts, wait⟩
    case paceResults => exact fun _ => ⟨elapsed, resid⟩
    all_goals simp [phase, noOverrun, canonical]

/-- The invariant speaks of the block's side of a state only. -/
theorem invariant_blockOf (s : State) : Invariant (blockOf s) ↔ Invariant s := by
  constructor <;> exact fun h =>
    ⟨h.notReserved, h.hmark, h.hspace, h.bmark, h.bspace, h.fmark, h.pace, h.paceResults, h.noOverrun, h.recordCanonical⟩

/-! ### The counts of the packet's first bits -/

theorem take_succ_bitIndexes (i : BitIndex) : bitIndexes.take (i.toNat + 1) = bitIndexes.take i.toNat ++ [i] := by
  revert i
  decide

theorem onesAmong_take_succ (cmd : Word) (i : BitIndex) :
    onesAmong cmd (bitIndexes.take (i.toNat + 1)) = onesAmong cmd (bitIndexes.take i.toNat) + (dataBit cmd i).toNat := by
  rw [take_succ_bitIndexes]
  cases hb : dataBit cmd i <;> simp [onesAmong, hb]

/-- R72: the tally of the bit with index `n` counts one bit more. -/
theorem countedBits_tally (s : State) (h : countedBits s.bitidx.toNat s) :
    countedBits (s.bitidx.toNat + 1) (tally (dataBit s.cmd s.bitidx) s) := by
  obtain ⟨ones, total⟩ := h
  have hi := s.bitidx.isLt
  have next := onesAmong_take_succ s.cmd s.bitidx
  cases hb : dataBit s.cmd s.bitidx
  · have room : s.zeros ≠ 63#6 := by rintro e; simp [e] at total; omega
    rw [hb, Bool.toNat_false] at next
    rw [tally_false s room, countedBits, next]
    exact ⟨ones, by bv_omega⟩
  · have room : s.ones ≠ 63#6 := by rintro e; simp [e] at total; omega
    rw [hb, Bool.toNat_true] at next
    rw [tally_true s room, countedBits, next]
    constructor <;> bv_omega

/-! ### A tick of a counted phase and of a burst -/

/-- A tick of a space or a wait that has ticks left: one less is left, or the phase ends. -/
theorem countTick_counting (l : Bool) (f : State → State) {d : Nat} {s : State} (h : counting d s) :
    (countTick l f (beginTick s) = ticked l s ∧ counting d (ticked l s))
      ∨ countTick l f (beginTick s) = f (ticked l s) := by
  obtain ⟨low, high⟩ := h
  by_cases hr : 2 ≤ s.rem.toNat
  · refine .inl ⟨countTick_begin_running l f s hr, ?_⟩
    rw [counting, ticked_rem]
    constructor <;> bv_omega
  · exact .inr (countTick_begin_last l f s (by bv_omega))

theorem burstRunning_of_loaded {n : Nat} {s : State} (loaded : s.rem = 13#17) (cyc : s.cyc.toNat < n) : burstRunning n s := by
  rw [burstRunning, loaded]
  exact ⟨by decide, by decide, cyc⟩

/-- A tick of a burst (R63): another tick of a running burst, or the burst's end. -/
theorem burstTick_running (n : Nat) (f : State → State) {s : State} (h : burstRunning n s) :
    (∃ l c k r, burstTick n f (beginTick s) = { ticked l s with cyc := c, half := k, rem := r }
        ∧ burstRunning n { ticked l s with cyc := c, half := k, rem := r })
      ∨ ∃ l c, burstTick n f (beginTick s) = f { ticked l s with cyc := c } := by
  obtain ⟨low, high, cyc⟩ := h
  by_cases hr : 2 ≤ s.rem.toNat
  · refine .inl ⟨_, s.cyc, s.half, s.rem - 1#17, burstTick_begin_running n f s hr, ?_, ?_, cyc⟩
    · show 1 ≤ (s.rem - 1#17).toNat
      bv_omega
    · show (s.rem - 1#17).toNat ≤ 13
      bv_omega
  have last : s.rem = 1#17 := by bv_omega
  cases hh : s.half
  · exact .inl ⟨_, _, _, _, burstTick_begin_high n f s last hh, burstRunning_of_loaded rfl cyc⟩
  · by_cases hc : (s.cyc + 1#7).toNat < n
    · exact .inl ⟨_, _, _, _, burstTick_begin_low n f s last hh hc, burstRunning_of_loaded rfl hc⟩
    · exact .inr ⟨_, _, burstTick_begin_done n f s last hh (Nat.le_of_not_lt hc)⟩

/-! ### The phases' ends lead to the next phase's clause -/

theorem hmarkDone_clause {t : State} (counts : countedBits 0 t) (first : t.bitidx = 0#5) : PhaseClause (hmarkDone t) :=
  .hspace rfl counts first (by decide : 1 ≤ BitVec.toNat 1998#17 ∧ BitVec.toNat 1998#17 ≤ 1998)

theorem hspaceEnd_clause {t : State} (counts : countedBits 0 t) (first : t.bitidx = 0#5) : PhaseClause (hspaceEnd t) := by
  have entered : burstRunning 12 (hspaceEnd t) := burstRunning_of_loaded rfl (by decide : BitVec.toNat 0#7 < 12)
  have firstBit : (hspaceEnd t).bitidx.toNat = 0 := congrArg BitVec.toNat first
  exact .bmark rfl (by rw [firstBit]; exact counts) entered

theorem symbolSpace_range (b : Bool) : 1 ≤ symbolSpace b ∧ symbolSpace b ≤ 688 := by
  revert b
  decide

theorem bmarkDone_clause {t : State} (counts : countedBits t.bitidx.toNat t) : PhaseClause (bmarkDone t) := by
  have range := symbolSpace_range (dataBit t.cmd t.bitidx)
  have loaded : (bmarkDone t).rem.toNat = symbolSpace (dataBit t.cmd t.bitidx) :=
    Nat.mod_eq_of_lt (by omega)
  exact .bspace rfl counts ⟨by omega, loaded.le⟩

theorem bspaceEnd_clause {t : State} (counts : countedBits t.bitidx.toNat t) : PhaseClause (bspaceEnd t) := by
  have tallied := countedBits_tally t counts
  have entered (u : State) : burstRunning 12 (burstEntry u) := burstRunning_of_loaded rfl (by decide : BitVec.toNat 0#7 < 12)
  unfold bspaceEnd
  dsimp only
  split
  next last =>
    have counted : t.bitidx.toNat + 1 = 32 := by rw [last]; rfl
    rw [counted] at tallied
    exact .fmark rfl tallied (entered _)
  next more =>
    have next : (t.bitidx + 1#5).toNat = t.bitidx.toNat + 1 := by bv_omega
    exact .bmark rfl (by rw [burstEntry_bitidx, next]; exact tallied) (entered _)

/-- R86: the pacer's results are those of the packet's 32 bits. -/
theorem paceEntry_clause {t : State} (counts : countedBits 32 t) : PhaseClause (paceEntry t) := by
  obtain ⟨ones, total⟩ := counts
  have packetOnes : t.ones.toNat = popcount t.cmd := ones
  have time : totalTime t.ones t.zeros = 23512 + 400 * popcount t.cmd := by
    rw [totalTime_eq]
    omega
  have residual : residualOf Config.targetPeriod t.ones t.zeros = 76488 - 400 * popcount t.cmd := by
    rw [residualOf, time]
    simp only [Config.targetPeriod, Config.packetsPerSecond]
    omega
  have wait : clampedWait (76488 - 400 * popcount t.cmd) = 76488 - 400 * popcount t.cmd := by
    rw [clampedWait]
    omega
  rw [paceEntry_eq, residual, wait, time]
  refine .pace rfl ⟨ones, total⟩ ?_ ?_ ?_
  · exact Nat.mod_le _ _
  · exact Nat.mod_eq_of_lt (by omega)
  · rw [BitVec.toInt_ofInt]
    exact Int.bmod_eq_of_le (by omega) (by omega)

/-! ### The tick of each phase -/

theorem phaseTick_hmark {s : State} (h : s.phase = phaseHmark) :
    phaseTick s = burstTick 77 hmarkDone (beginTick s) := by
  simp only [phaseTick, atBoundary, h]
  rfl

theorem phaseTick_hspace {s : State} (h : s.phase = phaseHspace) :
    phaseTick s = countTick false hspaceEnd (beginTick s) := by
  simp only [phaseTick, atBoundary, h]
  rfl

theorem phaseTick_bmark {s : State} (h : s.phase = phaseBmark) :
    phaseTick s = burstTick 12 bmarkDone (beginTick s) := by
  simp only [phaseTick, atBoundary, h]
  rfl

theorem phaseTick_bspace {s : State} (h : s.phase = phaseBspace) :
    phaseTick s = countTick false bspaceEnd (beginTick s) := by
  simp only [phaseTick, atBoundary, h]
  rfl

theorem phaseTick_fmark {s : State} (h : s.phase = phaseFmark) :
    phaseTick s = burstTick 12 paceEntry (beginTick s) := by
  simp only [phaseTick, atBoundary, h]
  rfl

theorem phaseTick_pace {s : State} (h : s.phase = phasePace) (hr : s.rem ≠ 0#17) :
    phaseTick s = countTick false (fun t => t) (beginTick s) := by
  have off : atBoundary s = false := by simp [atBoundary, h, hr]
  simp only [phaseTick, off, h]
  rfl

/-- The boundary tick (R92) starts the header with the statistics cleared, whatever the state. -/
theorem phaseTick_boundary_clause {s : State} (h : atBoundary s = true) : PhaseClause (phaseTick s) := by
  rw [phaseTick_boundary s h]
  have running : 1 ≤ BitVec.toNat 12#17 ∧ BitVec.toNat 12#17 ≤ 13 ∧ BitVec.toNat 0#7 < 77 := by decide
  exact .hmark rfl ⟨rfl, rfl⟩ rfl running

/-- A phase's tick leads from its clause to the clause of the same phase or of the next. -/
theorem phaseTick_keeps_clause {s : State} (h : PhaseClause s) : PhaseClause (phaseTick s) := by
  cases h with
  | start phase => exact phaseTick_boundary_clause (by simp [atBoundary, phase])
  | hmark phase counts first running =>
    rw [phaseTick_hmark phase]
    obtain ⟨l, c, k, r, tick, still⟩ | ⟨l, c, tick⟩ := burstTick_running 77 hmarkDone running
    · rw [tick]; exact .hmark phase counts first still
    · rw [tick]; exact hmarkDone_clause counts first
  | hspace phase counts first running =>
    rw [phaseTick_hspace phase]
    obtain ⟨tick, still⟩ | tick := countTick_counting false hspaceEnd running
    · rw [tick]; exact .hspace phase counts first still
    · rw [tick]; exact hspaceEnd_clause counts first
  | bmark phase counts running =>
    rw [phaseTick_bmark phase]
    obtain ⟨l, c, k, r, tick, still⟩ | ⟨l, c, tick⟩ := burstTick_running 12 bmarkDone running
    · rw [tick]; exact .bmark phase counts still
    · rw [tick]; exact bmarkDone_clause counts
  | bspace phase counts running =>
    rw [phaseTick_bspace phase]
    obtain ⟨tick, still⟩ | tick := countTick_counting false bspaceEnd running
    · rw [tick]; exact .bspace phase counts still
    · rw [tick]; exact bspaceEnd_clause counts
  | fmark phase counts running =>
    rw [phaseTick_fmark phase]
    obtain ⟨l, c, k, r, tick, still⟩ | ⟨l, c, tick⟩ := burstTick_running 12 paceEntry running
    · rw [tick]; exact .fmark phase counts still
    · rw [tick]; exact paceEntry_clause counts
  | pace phase counts wait elapsed resid =>
    by_cases hr : s.rem = 0#17
    · exact phaseTick_boundary_clause (by simp [atBoundary, phase, hr])
    · have running : counting (76488 - 400 * popcount s.cmd) s := ⟨by bv_omega, wait⟩
      have less : (ticked false s).rem.toNat ≤ s.rem.toNat := by rw [ticked_rem]; bv_omega
      have waiting : PhaseClause (ticked false s) := .pace phase counts (less.trans wait) elapsed resid
      rw [phaseTick_pace phase hr]
      obtain ⟨tick, -⟩ | tick := countTick_counting false (fun t => t) running
      · rw [tick]; exact waiting
      · rw [tick]; exact waiting

theorem phaseTick_keeps_canonicalRecord {s : State} (h : CanonicalRecord s) : CanonicalRecord (phaseTick s) := by
  obtain ⟨l, wave⟩ := phaseTick_wave s
  rw [CanonicalRecord, wave]
  exact waveWf_record l 1 s.wave h

theorem phaseTick_keeps_invariant {s : State} (h : Invariant s) : Invariant (phaseTick s) :=
  (phaseTick_keeps_clause h.phaseClause).invariant ((phaseTick_ovrCnt s).trans h.noOverrun)
    (phaseTick_keeps_canonicalRecord h.recordCanonical)

/-! ### The statements -/

/-- Settles O10: after reset the sequencer is in START, of which R33 says nothing more. -/
theorem invariantAtReset : Obligations.InvariantAtReset :=
  (PhaseClause.start rfl).invariant rfl rfl

/-- A reset tick meets the invariant whatever the phase it finds; it adds a tick to a canonical record. -/
theorem resetTick_invariant {s : State} (h : CanonicalRecord s) : Invariant (resetTick s) :=
  (PhaseClause.start rfl).invariant rfl (waveWf_record false 1 s.wave h)

/-- Settles O11, by what a step can do: a reset tick; or the phase's tick, around which taking the inputs and the adapter's part
change only what lies outside the block. -/
theorem stepKeepsInvariant : Obligations.StepKeepsInvariant := by
  intro s t h hstep
  rcases step_cases s with ⟨-, reset⟩ | ⟨-, -, fault⟩ | ⟨-, -, tick⟩
  · rw [reset] at hstep
    cases hstep
    exact resetTick_invariant h.recordCanonical
  · rw [fault] at hstep
    cases hstep
  · rw [tick] at hstep
    cases hstep
    have opened : Invariant (openTick s) := by rwa [← invariant_blockOf, blockOf_openTick, invariant_blockOf]
    have ticked := phaseTick_keeps_invariant opened
    rwa [← invariant_blockOf, blockOf_adapterTick, invariant_blockOf]

end Sys2Proof.Machine
end

section
/-! An update's way from the host's bytes to `CMD` (O24, O29, O31): the adapter gathers four bytes into the word that the decoder's
`UPD` delivers, the mailbox holds the word from the tick of its delivery, and the next boundary's poll takes it. -/

namespace Sys2Proof.Machine

/-! ### The adapter -/

/-- The byte that completes a group delivers the group and leaves no byte held (R109, R110). -/
theorem takeByte_completes {b0 b1 b2 : Byte} (b3 : Byte) {s : State} (h : s.held = .three b0 b1 b2) :
    takeByte b3 s = deliver (packWord b0 b1 b2 b3) { s with held := .zero } := by
  simp only [takeByte, h]

/-- From an empty adapter four bytes are one delivery. -/
theorem takeBytes_group (b0 b1 b2 b3 : Byte) (rest : List Byte) {s : State} (h : s.held = .zero) :
    takeBytes (b0 :: b1 :: b2 :: b3 :: rest) s = takeBytes rest (deliver (packWord b0 b1 b2 b3) s) := by
  have held : takeByte b2 (takeByte b1 (takeByte b0 s)) = { s with held := .three b0 b1 b2 } := by
    simp only [takeByte, h]
  have emptied : { s with held := .zero } = s := by rw [← h]
  simp only [takeBytes, held]
  rw [takeByte_completes b3 rfl, emptied]

/-- From an empty adapter fewer than four bytes are only held. -/
theorem takeBytes_short {bytes : List Byte} (short : bytes.length < 4) {s : State} (h : s.held = .zero) :
    ∃ held, takeBytes bytes s = { s with held := held } := by
  match bytes, short with
  | [], _ => exact ⟨s.held, rfl⟩
  | [b0], _ => exact ⟨.one b0, by simp only [takeBytes, takeByte, h]⟩
  | [b0, b1], _ => exact ⟨.two b0 b1, by simp only [takeBytes, takeByte, h]⟩
  | [b0, b1, b2], _ => exact ⟨.three b0 b1 b2, by simp only [takeBytes, takeByte, h]⟩

theorem adapterTick_completes {b0 b1 b2 : Byte} (b3 : Byte) {s : State} (h : s.held = .three b0 b1 b2) :
    adapterTick (.byte b3) s =
      deliver (packWord b0 b1 b2 b3) { (if s.ready then sendReadyByte s else s) with held := .zero } := by
  refine takeByte_completes b3 ?_
  split <;> exact h

/-- A tick without a delivery leaves the mailbox (R95). -/
theorem adapterTick_no_delivery {a : Arrival} {s : State} (h : delivers a s.held = false) :
    (adapterTick a s).mbx = s.mbx ∧ (adapterTick a s).mbxV = s.mbxV := by
  unfold adapterTick
  split
  · obtain ⟨held, arrival⟩ := arrive_no_delivery a (sendReadyByte s) h
    simp [arrival]
  · obtain ⟨held, arrival⟩ := arrive_no_delivery a s h
    simp [arrival]

/-- A delivery is the fourth byte of a group. -/
theorem eq_three_of_delivers {a : Arrival} {held : Held} (h : delivers a held = true) :
    ∃ b0 b1 b2 b3, held = .three b0 b1 b2 ∧ a = .byte b3 := by
  cases a with
  | nothing => cases h
  | byte b3 =>
    cases held with
    | three b0 b1 b2 => exact ⟨b0, b1, b2, b3, rfl, rfl⟩
    | zero => cases h
    | one _ => cases h
    | two _ _ => cases h

/-- After a tick the mailbox holds an update if one was delivered in it or one was pending. -/
theorem adapterTick_mbxV (a : Arrival) (s : State) : (adapterTick a s).mbxV = (delivers a s.held || s.mbxV) := by
  cases h : delivers a s.held
  · exact (adapterTick_no_delivery h).2
  · obtain ⟨b0, b1, b2, b3, held, rfl⟩ := eq_three_of_delivers h
    rw [adapterTick_completes b3 held]
    rfl

/-! ### The update that the decoder reads -/

/-- The throttle byte is its channel flag and its throttle (R49). -/
theorem throttleByte_msb_setWidth (b : Byte) : throttleByte b.msb (b.setWidth 7) = b :=
  BitVec.cons_msb_setWidth b

/-- Running the decoded `UPD` delivers the word of its four bytes (R110). -/
theorem exec_decodeUpdate (b0 b1 b2 b3 : Byte) (s : State) :
    exec (decodeUpdate b0 b1 b2 b3) s = .next (deliver (packWord b0 b1 b2 b3) s) := by
  have word : fieldsWord b0 b1 b2.msb (b2.setWidth 7) b3 = packWord b0 b1 b2 b3 := by
    rw [fieldsWord, throttleByte_msb_setWidth]
  rw [← word]
  rfl

theorem decodeHostBytes_eq_ok {bytes rest : List Byte} {i : Instr} (h : decodeHostBytes bytes = .ok (i, rest)) :
    ∃ b0 b1 b2 b3, bytes = b0 :: b1 :: b2 :: b3 :: rest ∧ i = decodeUpdate b0 b1 b2 b3 := by
  unfold decodeHostBytes at h
  split at h
  next b0 b1 b2 b3 _ =>
    cases h
    exact ⟨b0, b1, b2, b3, rfl, rfl⟩
  next => cases h

/-- Where the decoder waits for more data, the fourth byte is missing (R111). -/
theorem length_lt_of_insufficientData {bytes : List Byte} (h : decodeHostBytes bytes = .error .insufficientData) :
    bytes.length < 4 := by
  match bytes with
  | [] | [_] | [_, _] | [_, _, _] => simp
  | _ :: _ :: _ :: _ :: _ => cases h

/-! ### The mailbox in a tick -/

theorem phase_ne_reserved_of_atBoundary {s : State} (h : atBoundary s = true) : s.phase ≠ phaseReserved := by
  intro reserved
  simp [atBoundary, reserved] at h

/-- Off the boundary an update in the mailbox waits, if no group is delivered (R42, R116). -/
theorem step_keeps_mailbox {s t : State} (hb : atBoundary s = false) (hr : (nextInput s).rst = false)
    (hd : delivers (nextInput s).arrival s.held = false) (h : step s = .next t) : t.mbx = s.mbx ∧ t.mbxV = s.mbxV := by
  rcases step_cases s with ⟨reset, -⟩ | ⟨-, -, fault⟩ | ⟨-, -, tick⟩
  · simp [hr] at reset
  · rw [fault] at h
    cases h
  · rw [tick] at h
    cases h
    have frame := phaseTick_off_boundary (openTick s) hb
    have mbx : (phaseTick (openTick s)).mbx = s.mbx := (congrArg State.mbx frame :)
    have mbxV : (phaseTick (openTick s)).mbxV = s.mbxV := (congrArg State.mbxV frame :)
    have held : (phaseTick (openTick s)).held = s.held := (congrArg State.held frame :)
    rw [← held] at hd
    rw [← mbx, ← mbxV]
    exact adapterTick_no_delivery hd

/-! ### Runs -/

theorem run_succ_eq_next {n : Nat} {s u : State} (h : run (n + 1) s = .next u) :
    ∃ t, step s = .next t ∧ run n t = .next u := by
  unfold run at h
  split at h
  next t first => exact ⟨t, first, h⟩
  next => cases h
  next => cases h

/-- The ticks of a run pass no boundary, no reset and no delivery. -/
def Undisturbed (n : Nat) (s : State) : Prop :=
  ∀ k v, k < n → run k s = .next v →
    atBoundary v = false ∧ (nextInput v).rst = false ∧ delivers (nextInput v).arrival v.held = false

theorem Undisturbed.tail {n : Nat} {s t : State} (h : Undisturbed (n + 1) s) (first : step s = .next t) : Undisturbed n t :=
  fun k v hk hv => h (k + 1) v (Nat.succ_lt_succ hk) ((run_succ_next k s t first).trans hv)

/-- An undisturbed run leaves the mailbox. -/
theorem run_keeps_mailbox {n : Nat} {s u : State} (h : run n s = .next u) (quiet : Undisturbed n s) :
    u.mbx = s.mbx ∧ u.mbxV = s.mbxV := by
  induction n generalizing s with
  | zero =>
    cases h
    exact ⟨rfl, rfl⟩
  | succ n ih =>
    obtain ⟨t, first, rest⟩ := run_succ_eq_next h
    obtain ⟨hb, hr, hd⟩ := quiet 0 s n.succ_pos rfl
    obtain ⟨mbx, mbxV⟩ := step_keeps_mailbox hb hr hd first
    rw [← mbx, ← mbxV]
    exact ih rest (quiet.tail first)

/-! ### The statements -/

/-- Settles O24: the phase's tick polls and empties the mailbox before the adapter's part of the tick can fill it. -/
theorem boundaryPollMissesSameTickWrite : Obligations.BoundaryPollMissesSameTickWrite := by
  intro s hr hb
  have boundary := phaseTick_boundary (openTick s) hb
  have held : (phaseTick (openTick s)).held = s.held := by rw [boundary]; rfl
  refine ⟨_, step_phase s hr (phase_ne_reserved_of_atBoundary hb), ?_, ?_, ?_, ?_, ?_, ?_, fun b0 b1 b2 b3 group last => ?_⟩
  · rw [adapterTick_cmd, boundary]; rfl
  · rw [adapterTick_ones, boundary]
  · rw [adapterTick_zeros, boundary]
  · rw [adapterTick_bitidx, boundary]
  · rw [adapterTick_phase, boundary]
  · rw [adapterTick_mbxV, held, boundary, Bool.or_false]
  · rw [last, adapterTick_completes b3 (held.trans group)]; rfl

/-- Settles O29: the run leaves the mailbox, and the boundary tick's poll takes it. -/
theorem pendingUpdateReachesNextPacket : Obligations.PendingUpdateReachesNextPacket := by
  intro n s u pending hrun hb hr quiet
  obtain ⟨mbx, mbxV⟩ := run_keeps_mailbox hrun quiet
  obtain ⟨t, tick, cmd, -⟩ := boundaryPollMissesSameTickWrite u hr hb
  refine ⟨t, tick, ?_⟩
  rw [cmd, mbxV, pending, if_pos rfl, mbx]

/-- Settles O31: four bytes are the delivery that the decoded `UPD` makes; fewer are only held. -/
theorem adapterRunsDecodedUpdates : Obligations.AdapterRunsDecodedUpdates := by
  intro bytes s empty
  constructor
  · intro i rest decoded
    obtain ⟨b0, b1, b2, b3, rfl, rfl⟩ := decodeHostBytes_eq_ok decoded
    exact ⟨_, exec_decodeUpdate b0 b1 b2 b3 s, empty, takeBytes_group b0 b1 b2 b3 rest empty⟩
  · intro short
    exact takeBytes_short (length_lt_of_insufficientData short) empty

end Sys2Proof.Machine
end

section
/-! Decoder and encoder are inverse to each other on the codes that have a meaning (O1, O2), which the words written out in the
encoding tables show (O3). -/

namespace Sys2Proof

/-! ### From an instruction to its code and back -/

/-- What Laws/PerInstr.lean says constructor by constructor. -/
theorem tableFormat (i : Instr) : Laws.TableFormat.Statement i :=
  match i with
  | .start => Laws.TableFormat.start
  | .hmark => Laws.TableFormat.hmark
  | .hspace => Laws.TableFormat.hspace
  | .bmark => Laws.TableFormat.bmark
  | .bspace => Laws.TableFormat.bspace
  | .fmark => Laws.TableFormat.fmark
  | .pace => Laws.TableFormat.pace
  | .reserved111 => Laws.TableFormat.reserved111
  | .hdr => Laws.TableFormat.hdr
  | .one => Laws.TableFormat.one
  | .zero => Laws.TableFormat.zero
  | .ftr => Laws.TableFormat.ftr
  | .upd y p c t r => Laws.TableFormat.upd y p c t r
  | .rdy => Laws.TableFormat.rdy
  | .emitPulses n => Laws.TableFormat.emitPulses n
  | .encodeBit b => Laws.TableFormat.encodeBit b
  | .transmit cmd => Laws.TableFormat.transmit cmd
  | .residualDelay o z => Laws.TableFormat.residualDelay o z
  | .paceWait w => Laws.TableFormat.paceWait w
  | .pollUpdate => Laws.TableFormat.pollUpdate
  | .signalReady => Laws.TableFormat.signalReady
  | .mailboxWrite d => Laws.TableFormat.mailboxWrite d

theorem decodeUpdate_throttleByte (y p : Byte) (c : Bool) (t : BitVec 7) (r : Byte) :
    decodeUpdate y p (throttleByte c t) r = .upd y p c t r := by
  rw [decodeUpdate, msb_throttleByte, setWidth_throttleByte]

/-- The decoder reads an instruction back from its code. The update and the port have operands, of which only the update's are
split and packed; every other code is a fixed word, and a source operation has none. -/
theorem decode_of_encode {i : Instr} {c : Code} (h : encode i = some c) : decode c = .ok i := by
  cases i with
  | upd y p ch t r =>
    cases h
    exact congrArg Except.ok (decodeUpdate_throttleByte y p ch t r)
  | _ => cases h <;> rfl

/-- Settles O1: outside the source operations an instruction has a code of its format, and the decoder reads it back. -/
theorem decodeOfEncode : Obligations.DecodeOfEncode := by
  intro i _ hasBits
  obtain ⟨codeless, format⟩ := tableFormat i
  obtain ⟨c, code⟩ := Option.ne_none_iff_exists'.mp (mt codeless.mpr hasBits)
  exact ⟨c, code, format c code, decode_of_encode code⟩

/-! ### From a code to its instruction and back -/

theorem encode_decodePhase (p : PhaseCode) : encode (decodePhase p) = some (.phase p) := by
  revert p
  decide

theorem encode_decodeSymbol (l : BitVec 2) : encode (decodeSymbol l) = some (.symbol l) := by
  revert l
  decide

theorem encode_decodeUpdate (b0 b1 b2 b3 : Byte) :
    encode (decodeUpdate b0 b1 b2 b3) = some (.update b0 b1 b2 b3) := by
  rw [decodeUpdate, encode, Machine.throttleByte_msb_setWidth]

/-- Settles O2, format by format: phases and labels are all used, an update's fields pack to its bytes, and of the ready bytes and
port bits only one is accepted. -/
theorem encodeOfDecode : Obligations.EncodeOfDecode := by
  intro c i h
  cases c with
  | phase p => cases h; exact encode_decodePhase p
  | symbol l => cases h; exact encode_decodeSymbol l
  | update b0 b1 b2 b3 => cases h; exact encode_decodeUpdate b0 b1 b2 b3
  | ready byte =>
    rw [decode] at h
    split at h
    next sentinel => cases h; rw [sentinel]; rfl
    next => cases h
  | port valid data =>
    rw [decode] at h
    split at h
    next selected => cases h; rw [selected]; rfl
    next => cases h

/-- Settles O3: each word is closed, and the decoder computes. -/
theorem writtenWordsDecode : Obligations.WrittenWordsDecode :=
  ⟨rfl, rfl, rfl, rfl, rfl, rfl, rfl, rfl, rfl, rfl, rfl⟩

end Sys2Proof
end

section
/-! The layout of the command word (O4), and the order in which its bits go out (O5). -/

namespace Sys2Proof.Machine

/-! ### The fields of four packed bytes (R48) -/

section
variable (b0 b1 b2 b3 : Byte)

@[simp] theorem yawOf_packWord : yawOf (packWord b0 b1 b2 b3) = b0 := by
  apply BitVec.eq_of_getLsbD_eq
  intro j hj
  have : ¬ 24 + j < 16 := by omega
  have : ¬ 24 + j < 8 := by omega
  simp [yawOf, getLsbD_packWord, *]

@[simp] theorem pitchOf_packWord : pitchOf (packWord b0 b1 b2 b3) = b1 := by
  apply BitVec.eq_of_getLsbD_eq
  intro j hj
  have : 16 + j < 24 := by omega
  have : ¬ 16 + j < 8 := by omega
  simp [pitchOf, getLsbD_packWord, *]

@[simp] theorem throttleByteOf_packWord : throttleByteOf (packWord b0 b1 b2 b3) = b2 := by
  apply BitVec.eq_of_getLsbD_eq
  intro j hj
  have : 8 + j < 16 := by omega
  simp [throttleByteOf, getLsbD_packWord, hj, this]

@[simp] theorem trimOf_packWord : trimOf (packWord b0 b1 b2 b3) = b3 := by
  apply BitVec.eq_of_getLsbD_eq
  intro j hj
  simp [trimOf, getLsbD_packWord, hj]

end

/-- The channel flag is the throttle byte's most significant bit (R49). -/
theorem channelOf_eq_msb (w : Word) : channelOf w = (throttleByteOf w).msb := by
  simp [channelOf, throttleByteOf, BitVec.msb_eq_getLsbD_last]

theorem throttleOf_eq_setWidth (w : Word) : throttleOf w = (throttleByteOf w).setWidth 7 := by
  apply BitVec.eq_of_getLsbD_eq
  intro j hj
  have : j < 8 := by omega
  simp [throttleOf, throttleByteOf, hj, this]

/-- A word is packed of its four bytes. -/
theorem packWord_fields (w : Word) : packWord (yawOf w) (pitchOf w) (throttleByteOf w) (trimOf w) = w := by
  apply BitVec.eq_of_getLsbD_eq
  intro j hj
  rw [getLsbD_packWord]
  split_ifs with trim throttle pitch
  · simp [trimOf, trim]
  · have : j - 8 < 8 := by omega
    have : 8 + (j - 8) = j := by omega
    simp [throttleByteOf, *]
  · have : j - 16 < 8 := by omega
    have : 16 + (j - 16) = j := by omega
    simp [pitchOf, *]
  · have : j - 24 < 8 := by omega
    have : 24 + (j - 24) = j := by omega
    simp [yawOf, *]

/-- Settles O4: the four bytes come back from the packed word and pack to it; the throttle byte is its flag and its throttle. -/
theorem commandWordLayout : Obligations.CommandWordLayout := by
  constructor
  · intro y p c t r
    simp [fieldsWord, channelOf_eq_msb, throttleOf_eq_setWidth]
  · intro w
    rw [fieldsWord, channelOf_eq_msb, throttleOf_eq_setWidth, throttleByte_msb_setWidth, packWord_fields]

/-! ### The order of the data bits (R51) -/

/-- Eight data bits in a row are a byte of the word, most significant bit first. -/
theorem dataBit_eq_byte_bit (cmd : Word) {first k : Nat} (hf : first ≤ 24) (hk : k < 8) :
    dataBit cmd (BitVec.ofNat 5 (first + k)) = (cmd.extractLsb' (24 - first) 8).getLsbD (7 - k) := by
  have index : (BitVec.ofNat 5 (first + k)).toNat = first + k := Nat.mod_eq_of_lt (by omega)
  have bit : 31 - (first + k) = 24 - first + (7 - k) := by omega
  rw [dataBit, index, bit]
  simp [show 7 - k < 8 by omega]

/-- Settles O5: each field is the byte of the eight data bits from its first on. -/
theorem dataBitOrder : Obligations.DataBitOrder := by
  intro cmd
  refine ⟨fun _ => rfl, fun k hk => ⟨?_, ?_, ?_, ?_⟩, rfl⟩
  · have yaw := dataBit_eq_byte_bit cmd (Nat.zero_le 24) hk
    rwa [Nat.zero_add] at yaw
  · exact dataBit_eq_byte_bit cmd (by decide) hk
  · exact dataBit_eq_byte_bit cmd (by decide) hk
  · exact dataBit_eq_byte_bit cmd (by decide) hk

end Sys2Proof.Machine
end

section
/-! The symbols run to their end (O36), and how long a packet lasts (O38). -/

namespace Sys2Proof.Machine

/-! ### A mark and a mark with its space -/

/-- A burst run to its end leaves the output low, and its cycles in the burst registers (R63). -/
theorem emitPulses_eq {n : Nat} (hn : n ≠ 0) (s : State) :
    emitPulses n s = { s with
      irOut := false, wave := (emitPulses n s).wave, cyc := BitVec.ofNat 7 n, half := true, rem := 0#17 } := by
  conv => lhs; rw [emitPulses_frame, if_neg hn]

/-- A mark and a space run to their end (R54) change what the mark's burst leaves. -/
theorem holdLow_emitPulses_eq {n d : Nat} (hn : n ≠ 0) (hd : d ≠ 0) (s : State) :
    holdLow d (emitPulses n s) = { s with
      irOut := false, wave := record false d (emitPulses n s).wave, cyc := BitVec.ofNat 7 n, half := true, rem := 0#17 } := by
  rw [holdLow, emit_pos false d hd, emitPulses_eq hn]

/-- What a mark and a space add to the output. -/
theorem holdLow_emitPulses_waveform {n d : Nat} (hn : n ≠ 0) (hd : d ≠ 0) (s : State) :
    ∃ w, holdLow d (emitPulses n s) =
        { s with irOut := false, wave := w, cyc := BitVec.ofNat 7 n, half := true, rem := 0#17 }
      ∧ levels w.reverse = outputLevels s ++ levels (burst n) ++ List.replicate d false := by
  refine ⟨_, holdLow_emitPulses_eq hn hd s, ?_⟩
  rw [levels_record, ← outputLevels, outputLevels_emitPulses]

theorem symbolSpace_ne_zero (b : Bool) : symbolSpace b ≠ 0 := by
  cases b <;> decide

/-- A data symbol is the mark of a bit and the space of its value (R66). -/
theorem dataSymbol_waveform (b : Bool) (s : State) :
    ∃ w, dataSymbol b s = { s with irOut := false, wave := w, cyc := 12#7, half := true, rem := 0#17 }
      ∧ levels w.reverse = outputLevels s ++ levels (burst 12) ++ List.replicate (symbolSpace b) false :=
  holdLow_emitPulses_waveform (by decide) (symbolSpace_ne_zero b) s

/-- The header is a mark and a space (R69). -/
theorem headerSymbol_waveform (s : State) :
    ∃ w, headerSymbol s = { s with irOut := false, wave := w, cyc := 77#7, half := true, rem := 0#17 }
      ∧ levels w.reverse = outputLevels s ++ levels (burst 77) ++ List.replicate 1998 false :=
  holdLow_emitPulses_waveform (by decide) (by decide) s

/-- The footer is a mark (R71). -/
theorem footerSymbol_waveform (s : State) :
    ∃ w, footerSymbol s = { s with irOut := false, wave := w, cyc := 12#7, half := true, rem := 0#17 }
      ∧ levels w.reverse = outputLevels s ++ levels (burst 12) :=
  ⟨_, emitPulses_eq (by decide) s, outputLevels_emitPulses 12 s⟩

/-- Settles O36, from the waveforms of the header, the data symbols and the footer. -/
theorem symbolsEmitTheirWaveform : Obligations.SymbolsEmitTheirWaveform := by
  intro s
  obtain ⟨header, headerRun, headerLevels⟩ := headerSymbol_waveform s
  obtain ⟨one, oneRun, oneLevels⟩ := dataSymbol_waveform true s
  obtain ⟨zero, zeroRun, zeroLevels⟩ := dataSymbol_waveform false s
  obtain ⟨footer, footerRun, footerLevels⟩ := footerSymbol_waveform s
  refine ⟨⟨header, congrArg Host.Outcome.next headerRun, headerLevels⟩,
    ⟨one, congrArg Host.Outcome.next oneRun, oneLevels⟩, ⟨zero, congrArg Host.Outcome.next zeroRun, zeroLevels⟩,
    ⟨footer, congrArg Host.Outcome.next footerRun, footerLevels⟩, fun b => ?_⟩
  obtain ⟨w, run, levels⟩ := dataSymbol_waveform b s
  exact ⟨w, congrArg Host.Outcome.next run, levels⟩

/-! ### The duration of a packet -/

/-- A data symbol lasts 600 ticks, and 400 more for a 1 (R75). -/
theorem mark_add_symbolSpace (b : Bool) : 312 + symbolSpace b = 600 + 400 * b.toNat := by
  cases b <;> rfl

theorem onesAmong_cons (cmd : Word) (i : BitIndex) (is : List BitIndex) :
    onesAmong cmd (i :: is) = onesAmong cmd is + (dataBit cmd i).toNat := by
  cases h : dataBit cmd i <;> simp [onesAmong, h]

theorem duration_dataSymbols (cmd : Word) (is : List BitIndex) :
    duration (is.flatMap (fun i => symbol (dataBit cmd i))) = 600 * is.length + 400 * onesAmong cmd is := by
  induction is with
  | nil => rfl
  | cons i is ih =>
    rw [List.flatMap_cons, duration_append, duration_symbol, mark_add_symbolSpace, ih, onesAmong_cons, List.length_cons]
    omega

@[simp] theorem length_bitIndexes : bitIndexes.length = 32 := rfl

theorem popcount_le (cmd : Word) : popcount cmd ≤ 32 := List.countP_le_length

/-- The header lasts 4000 ticks, the footer 312 (R75). -/
theorem duration_packet (cmd : Word) : duration (packet cmd) = 23512 + 400 * popcount cmd := by
  have header_ticks : duration header = 4000 := by rw [header, duration_append, duration_burst]; rfl
  have footer_ticks : duration footer = 312 := duration_burst 12
  rw [packet, duration_append, duration_append, header_ticks, footer_ticks, duration_dataSymbols, length_bitIndexes, popcount]
  omega

/-- Settles O38: the packet's duration is that of its parts, and the parts are as `packet` lists them. -/
theorem packetDuration : Obligations.PacketDuration := by
  intro cmd
  exact ⟨duration_packet cmd, popcount_le cmd, by rw [packet, List.flatMap_def], length_bitIndexes⟩

end Sys2Proof.Machine
end

section
/-! The ticks of a packet's symbols: from a boundary tick on, the ticks of the header, of each data bit and of the footer lead to the
state that the operation's symbol leaves, with the next phase entered. -/

namespace Sys2Proof.Machine

/-! ### Operation states in the tick machine -/

/-- The state as the tick machine holds it in a phase, with a data bit's index, the strobe down and the counter port driven
(R91). -/
def inPhase (p : PhaseCode) (i : BitIndex) (s : State) : State :=
  { s with phase := p, bitidx := i, ready := false, ovrCount := s.ovrCnt }

/-- The burst that follows the first `n` data bits: that of the next bit or, after all of them, the footer's (R100). -/
def bitEntry (n : Nat) (s : State) : State :=
  burstEntry (if n < 32 then inPhase phaseBmark (BitVec.ofNat 5 n) s else inPhase phaseFmark 31#5 s)

/-- The block's state from which a boundary tick starts its packet: the command polled, the statistics cleared (R92). -/
def packetStart (s : State) : State := blockOf (clearStatistics (pollUpdate s))

theorem inPhase_cmd (p : PhaseCode) (i : BitIndex) (s : State) : (inPhase p i s).cmd = s.cmd := rfl

theorem countedBits_inPhase {n : Nat} {p : PhaseCode} {i : BitIndex} {s : State} :
    countedBits n (inPhase p i s) ↔ countedBits n s := Iff.rfl

/-! ### A run from a boundary tick -/

/-- A tick drives the strobe anew (R91). -/
theorem phaseTick_of_ready (r : Bool) (s : State) : phaseTick { s with ready := r } = phaseTick s := rfl

/-- Ticks do not depend on the strobe of the tick before them. -/
theorem Leads.of_ready {n : Nat} {s t : State} (r : Bool) (h : Leads (n + 1) { s with ready := r } t) : Leads (n + 1) s t := by
  have same (k : Nat) : tickN (k + 1) { s with ready := r } = tickN (k + 1) s := by
    rw [tickN, phaseTick_of_ready, tickN]
  obtain ⟨reached, off⟩ := h
  refine ⟨(same n).symm.trans reached, fun k hk => ?_⟩
  cases k with
  | zero => exact off 0 hk
  | succ k =>
    rw [← same]
    exact off (k + 1) hk

theorem Leads.tail {n : Nat} {s t : State} (h : Leads (n + 1) s t) : Leads n (phaseTick s) t :=
  ⟨h.1, fun k hk => h.2 (k + 1) (Nat.succ_lt_succ hk)⟩

/-- The boundary tick is the header's first tick from the packet's start, but for the strobe (R92). -/
theorem blockOf_boundaryTick {s : State} (h : atBoundary s = true) :
    blockOf (phaseTick s) =
      { phaseTick (burstEntry (inPhase phaseHmark 0#5 (packetStart s))) with ready := s.phase == phasePace } := by
  have header := phaseTick_running (burstEntry (inPhase phaseHmark 0#5 (packetStart s)))
    (by decide : phaseHmark ≠ phaseStart) (by decide : 2 ≤ BitVec.toNat 13#17)
  rw [header, phaseTick_boundary s h, packetStart, pollUpdate_eq]
  simp [ticked, blockOf, withOutsideOf, inPhase, burstPhase]

theorem packetStart_openTick (s : State) : packetStart (openTick s) = packetStart s := by
  rw [packetStart, packetStart, pollUpdate_eq, pollUpdate_eq]
  rfl

theorem noResetWithin_mono {m n : Nat} {s : State} (hmn : m ≤ n) (h : noResetWithin n s) : noResetWithin m s :=
  fun i hi => h i (List.take_subset_take_left s.inputs hmn hi)

/-- A run from a boundary tick is the block's run from the packet's start, whatever the environment does, if no reset comes. -/
theorem run_of_boundary {n : Nat} {s t : State} (hn : 2 ≤ n) (hb : atBoundary s = true) (hr : noResetWithin n s)
    (h : Leads n (burstEntry (inPhase phaseHmark 0#5 (packetStart s))) t) :
    ∃ u, run n s = .next u ∧ blockOf u = t ∧ u.inputs = s.inputs.drop n := by
  obtain ⟨m, rfl⟩ := Nat.exists_eq_add_of_le' hn
  have first := step_phase s (nextInput_noReset hr) (phase_ne_reserved_of_atBoundary hb)
  have inputs : (adapterTick (nextInput s).arrival (phaseTick (openTick s))).inputs = s.inputs.tail := by
    rw [adapterTick_inputs, phaseTick_inputs]
    rfl
  have block : blockOf (adapterTick (nextInput s).arrival (phaseTick (openTick s))) =
      { phaseTick (burstEntry (inPhase phaseHmark 0#5 (packetStart s))) with ready := s.phase == phasePace } := by
    rw [blockOf_adapterTick, blockOf_boundaryTick (s := openTick s) hb, packetStart_openTick, openTick_phase]
  have rest : Leads (m + 1) (blockOf (adapterTick (nextInput s).arrival (phaseTick (openTick s)))) t := by
    rw [block]
    exact Leads.of_ready _ h.tail
  obtain ⟨u, reached, final, left⟩ := run_of_ticks rest (noResetWithin_tail hr inputs)
  refine ⟨u, (run_succ_next _ _ _ first).trans reached, final, ?_⟩
  rw [left, inputs, List.drop_tail]

/-! ### The ticks of a mark and of a space -/

/-- A burst's ticks do what the waveform operation does, and then what its phase does at the end. -/
theorem ticks_mark {n : Nat} (pos : 0 < n) (small : n < 128) {f : State → State} {p : PhaseCode}
    (hs : p ≠ phaseStart) (hp : p ≠ phaseReserved) (hb : burstPhase p = true)
    (hf : ∀ t, t.phase = p → phaseTick t = burstTick n f (beginTick t)) (i : BitIndex) (s : State) :
    Leads (26 * n) (burstEntry (inPhase p i s)) (f (inPhase p i (emitPulses n s))) := by
  obtain ⟨m, rfl⟩ := Nat.exists_eq_add_of_lt pos
  have ticks := ticks_burst (0 + m + 1) f small (0 + m) (burstEntry (inPhase p i s)) hs hp hb rfl rfl
    (by simp) fun t ht _ => hf t ht
  have wave := wave_emitCycles_congr (0 + m + 1) (burstEntry (inPhase p i s)) s rfl
  rw [wave] at ticks
  rw [emitPulses_eq (by omega) s]
  exact ticks

/-- The ticks of a space or a wait do what the low hold does, and then what its phase does at the end. -/
theorem ticks_space {d : Nat} (pos : 0 < d) (small : d < 2 ^ 17) {f : State → State} {p : PhaseCode}
    (hs : p ≠ phaseStart) (hp : p ≠ phaseReserved) (hb : burstPhase p = false)
    (hf : ∀ t, t.phase = p → t.rem = 1#17 → phaseTick t = countTick false f (beginTick t)) (i : BitIndex) (s : State) :
    Leads d { inPhase p i s with rem := BitVec.ofNat 17 d } (f (inPhase p i (holdLow d s))) := by
  obtain ⟨m, rfl⟩ := Nat.exists_eq_add_of_lt pos
  have ticks := ticks_hold (0 + m) f { inPhase p i s with rem := BitVec.ofNat 17 (0 + m + 1) } hs hp hb
    (Nat.mod_eq_of_lt small) hf
  have spent : passed false (0 + m + 1) { inPhase p i s with rem := BitVec.ofNat 17 (0 + m + 1) } =
      inPhase p i (holdLow (0 + m + 1) s) := by
    rw [holdLow, emit_pos false _ (by omega)]
    simp [passed, inPhase]
  rwa [spent] at ticks

/-! ### The ends of the phases -/

/-- The end of the header's burst loads its space (R97). -/
theorem hmarkDone_inPhase (i : BitIndex) (s : State) :
    hmarkDone (inPhase phaseHmark i s) = { inPhase phaseHspace i s with rem := BitVec.ofNat 17 1998 } := rfl

/-- The end of the header's space enters the first bit's burst (R98). -/
theorem hspaceEnd_inPhase (s : State) : hspaceEnd (inPhase phaseHspace 0#5 s) = bitEntry 0 s := rfl

/-- The end of a bit's burst loads the space of its value (R99). -/
theorem bmarkDone_inPhase (i : BitIndex) (s : State) :
    bmarkDone (inPhase phaseBmark i s) =
      { inPhase phaseBspace i s with rem := BitVec.ofNat 17 (symbolSpace (dataBit s.cmd i)) } := rfl

theorem tally_inPhase (b : Bool) (p : PhaseCode) (i : BitIndex) (s : State) :
    tally b (inPhase p i s) = inPhase p i (tally b s) := by
  cases b <;> rfl

/-- The end of a bit's space tallies the bit and enters the next burst (R100). -/
theorem bspaceEnd_inPhase (i : BitIndex) (s : State) :
    bspaceEnd (inPhase phaseBspace i s) = bitEntry (i.toNat + 1) (tally (dataBit s.cmd i) s) := by
  change (if i = 31#5 then burstEntry { tally (dataBit s.cmd i) (inPhase phaseBspace i s) with phase := phaseFmark }
    else burstEntry { tally (dataBit s.cmd i) (inPhase phaseBspace i s) with
      bitidx := i + 1#5, phase := phaseBmark }) = _
  rw [tally_inPhase, bitEntry]
  split
  next last => rw [last]; rfl
  next more =>
    have within : i.toNat + 1 < 32 := by bv_omega
    have next : i + 1#5 = BitVec.ofNat 5 (i.toNat + 1) := by bv_omega
    rw [if_pos within, next]
    rfl

/-! ### The ticks of the packet's symbols -/

theorem headerSymbol_eq (s : State) : headerSymbol s = holdLow 1998 (emitPulses 77 s) := rfl

theorem dataSymbol_eq (b : Bool) (s : State) : dataSymbol b s = holdLow (symbolSpace b) (emitPulses 12 s) := rfl

@[simp] theorem emitPulses_cmd (n : Nat) (s : State) : (emitPulses n s).cmd = s.cmd := by
  rw [emitPulses_frame]

section
variable (b : Bool) (s : State)

@[simp] theorem dataSymbol_cmd : (dataSymbol b s).cmd = s.cmd := by
  obtain ⟨w, symbol, -⟩ := dataSymbol_waveform b s
  rw [symbol]

@[simp] theorem dataSymbol_ones : (dataSymbol b s).ones = s.ones := by
  obtain ⟨w, symbol, -⟩ := dataSymbol_waveform b s
  rw [symbol]

@[simp] theorem dataSymbol_zeros : (dataSymbol b s).zeros = s.zeros := by
  obtain ⟨w, symbol, -⟩ := dataSymbol_waveform b s
  rw [symbol]

@[simp] theorem dataSymbol_bitidx : (dataSymbol b s).bitidx = s.bitidx := by
  obtain ⟨w, symbol, -⟩ := dataSymbol_waveform b s
  rw [symbol]

end

/-- The header's ticks (R97, R98) do what HDR does (R69). -/
theorem ticks_header (s : State) : Leads 4000 (burstEntry (inPhase phaseHmark 0#5 s)) (bitEntry 0 (headerSymbol s)) := by
  have mark := ticks_mark (n := 77) (by decide) (by decide) (by decide) (by decide) (by decide)
    (fun _ => phaseTick_hmark) 0#5 s
  have total : 26 * 77 + 1998 = 4000 := by decide
  have space := ticks_space (d := 1998) (by decide) (by decide) (by decide) (by decide) (by decide)
    (fun _ ht _ => phaseTick_hspace ht) 0#5 (emitPulses 77 s)
  rw [hmarkDone_inPhase] at mark
  rw [hspaceEnd_inPhase, ← headerSymbol_eq] at space
  rw [← total]
  exact mark.trans space

/-- A data bit's ticks (R99, R100) do what a step of the bit loop does (R68, R70). -/
theorem ticks_bit (i : BitIndex) (s : State) :
    Leads (600 + 400 * (dataBit s.cmd i).toNat) (bitEntry i.toNat s) (bitEntry (i.toNat + 1) (frameBits s.cmd [i] s)) := by
  have entry : bitEntry i.toNat s = burstEntry (inPhase phaseBmark i { s with bitidx := i }) := by
    rw [bitEntry, if_pos i.isLt, BitVec.ofNat_toNat, BitVec.setWidth_eq]
    rfl
  have range := symbolSpace_range (dataBit s.cmd i)
  have mark := ticks_mark (n := 12) (by decide) (by decide) (by decide) (by decide) (by decide)
    (fun _ => phaseTick_bmark) i { s with bitidx := i }
  have space := ticks_space (d := symbolSpace (dataBit s.cmd i)) (by omega) (by omega) (by decide) (by decide) (by decide)
    (fun _ ht _ => phaseTick_bspace ht) i (emitPulses 12 { s with bitidx := i })
  rw [bmarkDone_inPhase, emitPulses_cmd] at mark
  rw [← dataSymbol_eq, bspaceEnd_inPhase, dataSymbol_cmd] at space
  rw [entry, ← mark_add_symbolSpace]
  exact mark.trans space

/-- The footer's ticks (R101) do what FTR does (R71), and enter the wait. -/
theorem ticks_footer (s : State) :
    Leads 312 (bitEntry 32 s) (paceEntry (inPhase phaseFmark 31#5 (footerSymbol s))) :=
  ticks_mark (n := 12) (by decide) (by decide) (by decide) (by decide) (by decide) (fun _ => phaseTick_fmark) 31#5 s

end Sys2Proof.Machine
end

section
/-! The tick machine does what TRANSMIT does (O52): the ticks of a packet run the bit loop's steps between the header and the footer,
and `TRANSMIT` runs the same symbols from a state that agrees in what they read. -/

namespace Sys2Proof.Machine

/-! ### The bit loop -/

/-- An induction over the data bits in transmission order. -/
theorem bitIndex_induction {P : (n : Nat) → n ≤ 32 → Prop} (zero : P 0 (Nat.zero_le 32))
    (next : ∀ i : BitIndex, P i.toNat i.isLt.le → P (i.toNat + 1) i.isLt) (n : Nat) (hn : n ≤ 32) : P n hn := by
  induction n with
  | zero => exact zero
  | succ n ih =>
    have index : (BitVec.ofNat 5 n).toNat = n := Nat.mod_eq_of_lt (by omega)
    have step := next (BitVec.ofNat 5 n)
    simp only [index] at step
    exact step (ih (by omega))

theorem frameBits_append (cmd : Word) (is js : List BitIndex) (s : State) :
    frameBits cmd (is ++ js) s = frameBits cmd js (frameBits cmd is s) := by
  induction is generalizing s with
  | nil => rfl
  | cons i is ih => exact ih _

/-- The bit loop's step for one more bit. -/
theorem frameBits_take_succ (cmd : Word) (i : BitIndex) (s : State) :
    frameBits cmd (bitIndexes.take (i.toNat + 1)) s = frameBits cmd [i] (frameBits cmd (bitIndexes.take i.toNat) s) := by
  rw [take_succ_bitIndexes, frameBits_append]

theorem frameBits_singleton (cmd : Word) (i : BitIndex) (s : State) :
    frameBits cmd [i] s = tally (dataBit cmd i) (dataSymbol (dataBit cmd i) { s with bitidx := i }) := rfl

@[simp] theorem frameBits_cmd (cmd : Word) (is : List BitIndex) (s : State) : (frameBits cmd is s).cmd = s.cmd := by
  induction is generalizing s with
  | nil => rfl
  | cons i is ih =>
    rw [← List.singleton_append, frameBits_append, ih, frameBits_singleton, tally_cmd, dataSymbol_cmd]

/-- The bit loop leaves the last bit's index. -/
theorem frameBits_bitidx (cmd : Word) (s : State) : (frameBits cmd bitIndexes s).bitidx = 31#5 := by
  have loop : frameBits cmd bitIndexes s = frameBits cmd [31#5] (frameBits cmd (bitIndexes.take 31) s) :=
    frameBits_take_succ cmd 31#5 s
  rw [loop, frameBits_singleton, tally_bitidx, dataSymbol_bitidx]

/-- The ticks of the first data bits do what the bit loop does (R75). -/
theorem ticks_bits (s : State) {n : Nat} (hn : n ≤ 32) :
    Leads (600 * n + 400 * onesAmong s.cmd (bitIndexes.take n)) (bitEntry 0 s)
      (bitEntry n (frameBits s.cmd (bitIndexes.take n) s)) := by
  induction n, hn using bitIndex_induction with
  | zero => exact ⟨rfl, fun _ hk => absurd hk (Nat.not_lt_zero _)⟩
  | next i ih =>
    have bit := ticks_bit i (frameBits s.cmd (bitIndexes.take i.toNat) s)
    rw [frameBits_cmd, ← frameBits_take_succ] at bit
    have total : 600 * (i.toNat + 1) + 400 * onesAmong s.cmd (bitIndexes.take (i.toNat + 1)) =
        600 * i.toNat + 400 * onesAmong s.cmd (bitIndexes.take i.toNat) + (600 + 400 * (dataBit s.cmd i).toNat) := by
      rw [onesAmong_take_succ]
      omega
    rw [total]
    exact ih.trans bit

/-- A step of the bit loop counts its bit (R72). -/
theorem frameBits_singleton_countedBits {i : BitIndex} {s : State} (h : countedBits i.toNat s) :
    countedBits (i.toNat + 1) (frameBits s.cmd [i] s) := by
  have tallied := countedBits_tally (dataSymbol (dataBit s.cmd i) { s with bitidx := i }) (by simpa [countedBits] using h)
  rwa [dataSymbol_bitidx, dataSymbol_cmd] at tallied

/-- The bit loop's statistics (R72). -/
theorem frameBits_countedBits {s : State} (cleared : countedBits 0 s) {n : Nat} (hn : n ≤ 32) :
    countedBits n (frameBits s.cmd (bitIndexes.take n) s) := by
  induction n, hn using bitIndex_induction with
  | zero => exact cleared
  | next i ih =>
    have counted := frameBits_singleton_countedBits ih
    rwa [frameBits_cmd, ← frameBits_take_succ] at counted

/-! ### The packet -/

/-- The symbols of a packet run to their end: `TRANSMIT` (R68) but for what it clears before and returns after them. -/
def framePacket (cmd : Word) (s : State) : State := footerSymbol (frameBits cmd bitIndexes (headerSymbol s))

theorem transmit_eq (cmd : Word) (s : State) :
    transmit cmd s = { framePacket cmd (clearStatistics s) with
      elapsed := BitVec.ofNat 17 (totalTime (framePacket cmd (clearStatistics s)).ones
        (framePacket cmd (clearStatistics s)).zeros) } := rfl

@[simp] theorem headerSymbol_cmd (s : State) : (headerSymbol s).cmd = s.cmd := by
  obtain ⟨w, symbol, -⟩ := headerSymbol_waveform s
  rw [symbol]

@[simp] theorem framePacket_cmd (cmd : Word) (s : State) : (framePacket cmd s).cmd = s.cmd := by
  obtain ⟨w, symbol, -⟩ := footerSymbol_waveform (frameBits cmd bitIndexes (headerSymbol s))
  rw [framePacket, symbol]
  exact (frameBits_cmd ..).trans (headerSymbol_cmd s)

/-- The packet's ticks do what the packet's symbols do, and enter the wait. -/
theorem ticks_packet (s : State) :
    Leads (23512 + 400 * popcount s.cmd) (burstEntry (inPhase phaseHmark 0#5 s))
      (paceEntry (inPhase phaseFmark 31#5 (framePacket s.cmd s))) := by
  have bits := ticks_bits (headerSymbol s) (n := 32) (le_refl 32)
  rw [headerSymbol_cmd] at bits
  have total : 23512 + 400 * popcount s.cmd = 4000 + (600 * 32 + 400 * popcount s.cmd) + 312 := by omega
  rw [total]
  exact ((ticks_header s).trans bits).trans (ticks_footer _)

/-- The statistics of a packet are those of its 32 data bits (R72). -/
theorem framePacket_countedBits {s : State} (cleared : countedBits 0 s) : countedBits 32 (framePacket s.cmd s) := by
  obtain ⟨w, header, -⟩ := headerSymbol_waveform s
  obtain ⟨v, footer, -⟩ := footerSymbol_waveform (frameBits s.cmd bitIndexes (headerSymbol s))
  have clearedHeader : countedBits 0 (headerSymbol s) := by rw [header]; exact cleared
  have counted := frameBits_countedBits clearedHeader (le_refl 32)
  rw [headerSymbol_cmd] at counted
  rw [framePacket, footer]
  exact counted

/-- The wait is entered with the residual of the 32 data bits (R81, R83). -/
theorem paceEntry_wait {s : State} (counts : countedBits 32 s) :
    (paceEntry s).rem.toNat = 76488 - 400 * popcount s.cmd ∧ (paceEntry s).resid.toInt = 76488 - 400 * popcount s.cmd := by
  obtain ⟨ones, total⟩ := counts
  have packetOnes : s.ones.toNat = popcount s.cmd := ones
  have residual : residualOf Config.targetPeriod s.ones s.zeros = 76488 - 400 * popcount s.cmd := by
    rw [residualOf, totalTime_eq, Config.targetPeriod, Config.packetsPerSecond]
    omega
  rw [paceEntry_eq, residual, clampedWait]
  constructor
  · rw [BitVec.toNat_ofNat]
    omega
  · rw [BitVec.toInt_ofInt]
    exact Int.bmod_eq_of_le (by omega) (by omega)

/-! ### What the packet's symbols read -/

/-- Two states agree in what a packet's symbols read: the record, the statistics and the draw counter. -/
structure SameFraming (s t : State) : Prop where
  wave : s.wave = t.wave
  ones : s.ones = t.ones
  zeros : s.zeros = t.zeros
  draws : s.draws = t.draws

theorem SameFraming.trans {s t u : State} (h : SameFraming s t) (h' : SameFraming t u) : SameFraming s u :=
  ⟨h.wave.trans h'.wave, h.ones.trans h'.ones, h.zeros.trans h'.zeros, h.draws.trans h'.draws⟩

theorem SameFraming.emitPulses {s t : State} (h : SameFraming s t) {n : Nat} (hn : n ≠ 0) :
    SameFraming (emitPulses n s) (emitPulses n t) := by
  rw [emitPulses_eq hn s, emitPulses_eq hn t]
  exact ⟨wave_emitCycles_congr n s t h.wave, h.ones, h.zeros, h.draws⟩

theorem SameFraming.holdLow {s t : State} (h : SameFraming s t) {d : Nat} (hd : d ≠ 0) :
    SameFraming (holdLow d s) (holdLow d t) := by
  rw [Machine.holdLow, Machine.holdLow, emit_pos false d hd s, emit_pos false d hd t]
  exact ⟨congrArg (record false d) h.wave, h.ones, h.zeros, h.draws⟩

theorem SameFraming.tally {s t : State} (h : SameFraming s t) (b : Bool) : SameFraming (tally b s) (tally b t) := by
  obtain ⟨wave, ones, zeros, draws⟩ := h
  cases b
  · constructor <;> simp [Machine.tally, wave, ones, zeros, draws]
  · constructor <;> simp [Machine.tally, wave, ones, zeros, draws]

theorem SameFraming.frameBits {s t : State} (h : SameFraming s t) (cmd : Word) (is : List BitIndex) :
    SameFraming (frameBits cmd is s) (frameBits cmd is t) := by
  induction is generalizing s t with
  | nil => exact h
  | cons i is ih =>
    have indexed : SameFraming { s with bitidx := i } { t with bitidx := i } := ⟨h.wave, h.ones, h.zeros, h.draws⟩
    have marked := indexed.emitPulses (n := 12) (by decide)
    have spaced := marked.holdLow (symbolSpace_ne_zero (dataBit cmd i))
    exact ih (spaced.tally (dataBit cmd i))

theorem SameFraming.framePacket {s t : State} (h : SameFraming s t) (cmd : Word) :
    SameFraming (framePacket cmd s) (framePacket cmd t) := by
  have header := (h.emitPulses (n := 77) (by decide)).holdLow (d := 1998) (by decide)
  exact (header.frameBits cmd bitIndexes).emitPulses (by decide)

/-- The block's side does not enter the packet's symbols but for what `SameFraming` names. -/
theorem packetStart_sameFraming (s : State) : SameFraming (packetStart s) (clearStatistics s) := by
  rw [packetStart, pollUpdate_eq]
  exact ⟨rfl, rfl, rfl, rfl⟩

theorem packetStart_cmd (s : State) : (packetStart s).cmd = polledCommand s := by
  rw [packetStart, pollUpdate_eq]
  rfl

/-- What the packet's symbols leave in the burst registers, the output and `BITIDX`. -/
theorem framePacket_registers (cmd : Word) (s : State) :
    (framePacket cmd s).irOut = false ∧ (framePacket cmd s).bitidx = 31#5 ∧ (framePacket cmd s).cyc = 12#7
      ∧ (framePacket cmd s).half = true := by
  obtain ⟨w, footer, -⟩ := footerSymbol_waveform (frameBits cmd bitIndexes (headerSymbol s))
  rw [framePacket, footer]
  exact ⟨rfl, frameBits_bitidx cmd _, rfl, rfl⟩

/-- From a boundary tick the packet's ticks run the symbols of the polled command and enter the wait, whatever the environment does,
if no reset comes. -/
theorem run_packet {s : State} (hb : atBoundary s = true) (hr : noResetWithin 100000 s) :
    ∃ t, run (23512 + 400 * popcount (polledCommand s)) s = .next t
      ∧ blockOf t = paceEntry (inPhase phaseFmark 31#5 (framePacket (polledCommand s) (packetStart s))) := by
  have bound := popcount_le (polledCommand s)
  have ticks := ticks_packet (packetStart s)
  rw [packetStart_cmd] at ticks
  obtain ⟨t, reached, block, -⟩ := run_of_boundary (by omega) hb (noResetWithin_mono (by omega) hr) ticks
  exact ⟨t, reached, block⟩

/-- The statistics of a boundary tick's packet. -/
theorem packetStart_countedBits (s : State) :
    countedBits 32 (framePacket (polledCommand s) (packetStart s)) := by
  have cleared : countedBits 0 (packetStart s) := by rw [packetStart, pollUpdate_eq]; exact ⟨rfl, rfl⟩
  have counts := framePacket_countedBits cleared
  rwa [packetStart_cmd] at counts

/-- What a block that has entered the wait holds of the state that the packet's symbols left. -/
theorem fields_of_paceEntry {s t : State} (h : blockOf t = paceEntry (inPhase phaseFmark 31#5 s)) :
    SameFraming t s ∧ t.irOut = s.irOut ∧ t.elapsed = BitVec.ofNat 17 (totalTime s.ones s.zeros) ∧ t.bitidx = 31#5
      ∧ t.cyc = s.cyc ∧ t.half = s.half ∧ t.cmd = s.cmd ∧ t.phase = phasePace := by
  refine ⟨⟨?_, ?_, ?_, ?_⟩, ?_, ?_, ?_, ?_, ?_, ?_, ?_⟩
  · exact (congrArg State.wave h :)
  · exact (congrArg State.ones h :)
  · exact (congrArg State.zeros h :)
  · exact (congrArg State.draws h :)
  · exact (congrArg State.irOut h :)
  · exact (congrArg State.elapsed h :)
  · exact (congrArg State.bitidx h :)
  · exact (congrArg State.cyc h :)
  · exact (congrArg State.half h :)
  · exact (congrArg State.cmd h :)
  · exact (congrArg State.phase h :)

/-- Settles O52: the packet's ticks and `TRANSMIT` run the same symbols from states that agree in what the symbols read; the pacer's
entry adds the residual of the packet's 32 bits. -/
theorem ticksRefineTransmit : Obligations.TicksRefineTransmit := by
  intro s hb hr cmd
  have polled : cmd = polledCommand s := rfl
  clear_value cmd
  subst polled
  obtain ⟨t, reached, block⟩ := run_packet hb hr
  obtain ⟨kept, irOut, elapsed, bitidx, cyc, half, command, phase⟩ := fields_of_paceEntry block
  obtain ⟨tIrOut, -, tCyc, tHalf⟩ := framePacket_registers (polledCommand s) (packetStart s)
  obtain ⟨uIrOut, uBitidx, uCyc, uHalf⟩ := framePacket_registers (polledCommand s) (clearStatistics s)
  have same := (packetStart_sameFraming s).framePacket (polledCommand s)
  obtain ⟨wave, ones, zeros, -⟩ := kept.trans same
  have sent : t.cmd = polledCommand s := by rw [command, framePacket_cmd, packetStart_cmd]
  obtain ⟨wait, residual⟩ := paceEntry_wait (countedBits_inPhase.mpr (packetStart_countedBits s))
  rw [← block, inPhase_cmd, ← command, sent] at wait residual
  rw [same.ones, same.zeros] at elapsed
  refine ⟨t, _, reached, congrArg Host.Outcome.next (transmit_eq (polledCommand s) s), ?_⟩
  exact ⟨wave, (irOut.trans tIrOut).trans uIrOut.symm, ones, zeros, elapsed, bitidx.trans uBitidx.symm,
    (cyc.trans tCyc).trans uCyc.symm, (half.trans tHalf).trans uHalf.symm, sent, phase, wait, residual⟩

end Sys2Proof.Machine
end

section
/-! Off the boundary nothing the environment holds or brings changes what the block does (O27). Two states that agree on the block's
side take the same tick of the phase, by `phaseTick_withOutsideOf`; the adapter's part then writes the environment's side only, and the
byte to the host, which it sends by `ready`. -/

namespace Sys2Proof.Machine

/-! ### Agreement on the block's side -/

theorem sameBlock.symm {s t : State} (h : sameBlock s t) : sameBlock t s := by
  rw [← h]
  rfl

theorem sameBlock.trans {s t u : State} (h : sameBlock s t) (h' : sameBlock t u) : sameBlock s u := by
  rw [← h', ← h]
  rfl

/-- The sentinel byte (R112) is the block's doing: it follows `ready`. -/
theorem sameBlock.sentinel {s t : State} (h : sameBlock s t) :
    sameBlock (if s.ready then sendReadyByte s else s) (if t.ready then sendReadyByte t else t) := by
  have ready : s.ready = t.ready := (congrArg State.ready h :)
  rw [ready]
  split
  · exact congrArg sendReadyByte h
  · exact h

/-- What arrives changes the environment's side only (R91 step 5). -/
theorem sameBlock_arrive (a : Arrival) (s : State) : sameBlock s (arrive a s) := by
  rw [arrive_frame]
  rfl

/-- The adapter's part of a tick, whatever arrives. -/
theorem sameBlock.adapterTick {s t : State} (h : sameBlock s t) (a b : Arrival) :
    sameBlock (adapterTick a s) (adapterTick b t) :=
  (sameBlock_arrive a _).symm.trans (h.sentinel.trans (sameBlock_arrive b _))

/-! ### The phase's tick -/

/-- Of what lies outside the block, only the byte to the host is not the environment's side. -/
theorem sameBlock_withOutsideOf {e s : State} (sameByte : s.hostTx = e.hostTx) : sameBlock s (withOutsideOf e s) := by
  rw [withOutsideOf, ← sameByte]
  rfl

/-- The port and the byte to the host are cleared as the tick opens. -/
theorem openTick_withEnvironmentOf (e s : State) :
    openTick (withEnvironmentOf e s) = withOutsideOf (openTick (withEnvironmentOf e s)) (openTick s) := rfl

/-- R64, R139: off the boundary the phase's tick takes nothing from the environment's side. -/
theorem phaseTick_sameBlock (e : State) {s : State} (off : atBoundary s = false) :
    sameBlock (phaseTick (openTick s)) (phaseTick (openTick (withEnvironmentOf e s))) := by
  have noByte : (phaseTick (openTick s)).hostTx = none := (congrArg State.hostTx (phaseTick_off_boundary (openTick s) off) :)
  rw [openTick_withEnvironmentOf, phaseTick_withOutsideOf _ (openTick s) off]
  exact sameBlock_withOutsideOf noByte

/-- Settles O27: the phase's tick is the same in both states, and the adapter's part keeps them the same. -/
theorem environmentCannotDisturbTick : Obligations.EnvironmentCannotDisturbTick := by
  intro s e notReserved off noReset noResetE
  exact ⟨_, _, step_phase s noReset notReserved, step_phase (withEnvironmentOf e s) noResetE notReserved,
    (phaseTick_sameBlock e off).adapterTick _ _⟩

end Sys2Proof.Machine
end

section
/-! `EMIT_PULSES` run to its end (O35). -/

namespace Sys2Proof.Machine

/-- The levels of a burst, cycle by cycle (R63). -/
theorem levels_burst (n : Nat) :
    levels (burst n) = (List.replicate n (List.replicate 13 true ++ List.replicate 13 false)).flatten := by
  induction n with
  | zero => rfl
  | succ n ih =>
    rw [burst, levels_cons, levels_cons, ih, ← List.append_assoc]
    rfl

/-- The record lasts as many ticks as the output has levels. -/
theorem length_outputLevels (s : State) : (outputLevels s).length = duration s.wave := by
  rw [outputLevels, length_levels, duration, List.map_reverse, List.sum_reverse, duration]

theorem duration_emitPulses (n : Nat) (s : State) : duration (emitPulses n s).wave = duration s.wave + 26 * n := by
  rw [← length_outputLevels, outputLevels_emitPulses, List.length_append, length_outputLevels, length_levels, duration_burst]

theorem exec_emitPulses {n : Cycles} (hn : n ≠ 0#7) (s : State) : exec (.emitPulses n) s = .next (emitPulses n.toNat s) :=
  if_neg hn

/-- Settles O35, from the frame and the waveform of a burst run to its end. -/
theorem emitPulsesBurst : Obligations.EmitPulsesBurst := by
  refine ⟨fun n s hn => ⟨(emitPulses n.toNat s).wave, ?_, ?_, duration_emitPulses n.toNat s⟩, fun _ => rfl⟩
  · have cycles : n.toNat ≠ 0 := fun h => hn (BitVec.eq_of_toNat_eq h)
    have burstRun := emitPulses_eq cycles s
    rw [BitVec.ofNat_toNat, BitVec.setWidth_eq] at burstRun
    exact (exec_emitPulses hn s).trans (congrArg Host.Outcome.next burstRun)
  · rw [← levels_burst]
    exact outputLevels_emitPulses n.toNat s

end Sys2Proof.Machine
end

section
/-! The half-cycles of a burst before its end (O14). -/

namespace Sys2Proof.Machine

/-- Settles O14: each mark's tick is the same burst's tick (R97, R99, R101), 77 or 12 cycles long. -/
theorem burstHalfCycles : Obligations.BurstHalfCycles := by
  intro s last
  refine ⟨fun high => ⟨?_, ?_, ?_⟩, fun low => ⟨fun header => ?_, fun bit => ⟨?_, ?_⟩⟩⟩
  · exact congrArg Host.Outcome.next (burstTick_begin_high 77 hmarkDone s last high)
  · exact congrArg Host.Outcome.next (burstTick_begin_high 12 bmarkDone s last high)
  · exact congrArg Host.Outcome.next (burstTick_begin_high 12 paceEntry s last high)
  · exact congrArg Host.Outcome.next (burstTick_begin_low 77 hmarkDone s last low header)
  · exact congrArg Host.Outcome.next (burstTick_begin_low 12 bmarkDone s last low bit)
  · exact congrArg Host.Outcome.next (burstTick_begin_low 12 paceEntry s last low bit)

end Sys2Proof.Machine
end

section
/-! The reference decoder on a packet (O39): each of its readers takes back what the packet was built of, and the word of the data bits
in transmission order is the command. -/

namespace Sys2Proof.Machine

/-! ### The readers (R77) -/

/-- What stands in front is taken off. -/
@[simp] theorem expect_append (es rest : List Segment) : expect es (es ++ rest) = some rest := by
  induction es with
  | nil => rfl
  | cons e es ih => rw [List.cons_append, expect, if_pos rfl, ih]

/-- The space of a data symbol tells its bit (R54). -/
@[simp] theorem spaceBit_symbolSpace (b : Bool) : spaceBit ⟨false, symbolSpace b⟩ = some b := by
  cases b <;> rfl

theorem readSymbols_flatMap_symbol (bs : List Bool) (rest : List Segment) :
    readSymbols bs.length (bs.flatMap symbol ++ rest) = some (bs, rest) := by
  induction bs with
  | nil => rfl
  | cons b bs ih =>
    have first : expect (burst Config.bitCycles) ((b :: bs).flatMap symbol ++ rest) =
        some (⟨false, symbolSpace b⟩ :: (bs.flatMap symbol ++ rest)) := by
      rw [List.flatMap_cons, symbol, List.append_assoc, List.append_assoc, expect_append]
      rfl
    rw [List.length_cons, readSymbols, first]
    simp [ih]

/-! ### The word of the data bits -/

/-- The data bits of a command in transmission order (R51). -/
def dataBits (cmd : Word) : List Bool := bitIndexes.map (dataBit cmd)

theorem wordOfBits_append_singleton (bs : List Bool) (b : Bool) :
    wordOfBits (bs ++ [b]) = (wordOfBits bs <<< 1) ||| (BitVec.ofBool b).setWidth 32 := by
  rw [wordOfBits, List.foldl_append]
  rfl

/-- A word's high bits, shifted up by one, and the next bit below them are its high bits with one more. -/
theorem ushiftRight_succ_shiftLeft_or (w : Word) (k : Nat) :
    ((w >>> (k + 1)) <<< 1) ||| (BitVec.ofBool (w.getLsbD k)).setWidth 32 = w >>> k := by
  apply BitVec.eq_of_getLsbD_eq
  intro j hj
  cases j with
  | zero => simp
  | succ j => simp [hj, Nat.add_assoc, Nat.add_comm 1 j]

/-- The first `n` data bits are the command's `n` high bits. -/
theorem wordOfBits_take (cmd : Word) {n : Nat} (hn : n ≤ 32) :
    wordOfBits ((bitIndexes.take n).map (dataBit cmd)) = cmd >>> (32 - n) := by
  induction n, hn using bitIndex_induction with
  | zero => exact (BitVec.ushiftRight_eq_zero (le_refl 32)).symm
  | next i ih =>
    have before : 32 - i.toNat = 31 - i.toNat + 1 := by omega
    have after : 32 - (i.toNat + 1) = 31 - i.toNat := by omega
    rw [take_succ_bitIndexes, List.map_append, List.map_singleton, wordOfBits_append_singleton, ih, before, after, dataBit,
      ushiftRight_succ_shiftLeft_or]

theorem wordOfBits_dataBits (cmd : Word) : wordOfBits (dataBits cmd) = cmd :=
  (wordOfBits_take cmd (le_refl 32)).trans (BitVec.ushiftRight_zero cmd)

/-! ### The packet -/

theorem packet_eq_dataBits (cmd : Word) : packet cmd = header ++ ((dataBits cmd).flatMap symbol ++ footer) := by
  rw [packet, dataBits, List.flatMap_map, List.append_assoc]

/-- Settles O39: header, symbols and footer are read back in their order, and the bits read are the command's. -/
theorem packetRoundTrip : Obligations.PacketRoundTrip := by
  intro cmd
  have symbols : readSymbols 32 ((dataBits cmd).flatMap symbol ++ footer) = some (dataBits cmd, footer) :=
    readSymbols_flatMap_symbol (dataBits cmd) footer
  rw [packet_eq_dataBits, decodePacket, expect_append]
  simp [symbols, wordOfBits_dataBits]

end Sys2Proof.Machine
end

section
/-! `TRANSMIT` run to its end (O37): the output is that of its symbols one after another, and the bit loop draws no free value, since
the statistics count at most 32 bits. -/

namespace Sys2Proof.Machine

/-! ### The output of the symbols -/

theorem outputLevels_dataSymbol (b : Bool) (s : State) :
    outputLevels (dataSymbol b s) = outputLevels s ++ levels (symbol b) := by
  rw [dataSymbol, outputLevels_holdLow, outputLevels_emitPulses, symbol, levels_append, List.append_assoc]
  simp

theorem outputLevels_headerSymbol (s : State) : outputLevels (headerSymbol s) = outputLevels s ++ levels header := by
  rw [headerSymbol, outputLevels_holdLow, outputLevels_emitPulses, header, levels_append, List.append_assoc]
  simp

@[simp] theorem outputLevels_tally (b : Bool) (s : State) : outputLevels (tally b s) = outputLevels s := by
  rw [outputLevels, tally_wave, outputLevels]

/-- The bit loop's output is its data symbols (R70). -/
theorem outputLevels_frameBits (cmd : Word) (is : List BitIndex) (s : State) :
    outputLevels (frameBits cmd is s) = outputLevels s ++ levels (is.flatMap fun i => symbol (dataBit cmd i)) := by
  induction is generalizing s with
  | nil => exact (List.append_nil _).symm
  | cons i is ih =>
    have indexed : outputLevels { s with bitidx := i } = outputLevels s := rfl
    rw [← List.singleton_append, frameBits_append, ih, frameBits_singleton, outputLevels_tally, outputLevels_dataSymbol, indexed,
      List.singleton_append, List.flatMap_cons, levels_append, List.append_assoc]

/-- The packet's symbols put out the packet (R74). -/
theorem outputLevels_framePacket (cmd : Word) (s : State) :
    outputLevels (framePacket cmd s) = outputLevels s ++ levels (packet cmd) := by
  rw [framePacket, footerSymbol, outputLevels_emitPulses, outputLevels_frameBits, outputLevels_headerSymbol, packet, footer]
  simp

/-! ### What the packet's symbols leave unchanged -/

theorem tally_frame (b : Bool) (s : State) :
    tally b s = { s with ones := (tally b s).ones, zeros := (tally b s).zeros, draws := (tally b s).draws } := by
  cases b <;> rfl

/-- The bit loop changes the output, the statistics and what its bursts leave. -/
theorem frameBits_frame (cmd : Word) (is : List BitIndex) (s : State) :
    ∃ l w o z i c h r d, frameBits cmd is s = { s with
      irOut := l, wave := w, ones := o, zeros := z, bitidx := i, cyc := c, half := h, rem := r, draws := d } := by
  induction is generalizing s with
  | nil => exact ⟨s.irOut, s.wave, s.ones, s.zeros, s.bitidx, s.cyc, s.half, s.rem, s.draws, rfl⟩
  | cons i is ih =>
    obtain ⟨w, symbol, -⟩ := dataSymbol_waveform (dataBit cmd i) { s with bitidx := i }
    rw [← List.singleton_append, frameBits_append, frameBits_singleton, symbol, tally_frame]
    exact ih _

theorem framePacket_frame (cmd : Word) (s : State) :
    ∃ w o z d, framePacket cmd s = { s with
      irOut := false, wave := w, ones := o, zeros := z
      bitidx := 31#5, cyc := 12#7, half := true, rem := 0#17, draws := d } := by
  obtain ⟨v, header, -⟩ := headerSymbol_waveform s
  obtain ⟨l, u, o, z, i, c, h, r, d, bits⟩ := frameBits_frame cmd bitIndexes (headerSymbol s)
  obtain ⟨w, footer, -⟩ := footerSymbol_waveform (frameBits cmd bitIndexes (headerSymbol s))
  have last : i = 31#5 := by
    rw [← frameBits_bitidx cmd (headerSymbol s), bits]
  rw [framePacket, footer, bits, header, last]
  exact ⟨w, o, z, d, rfl⟩

/-! ### The statistics of the packet -/

/-- Below 63 counted bits a tally draws no free value (R72). -/
theorem tally_draws (b : Bool) {s : State} (room : s.ones.toNat + s.zeros.toNat < 63) : (tally b s).draws = s.draws := by
  cases b
  · rw [tally_false s (by rintro full; simp [full] at room)]
  · rw [tally_true s (by rintro full; simp [full] at room)]

@[simp] theorem dataSymbol_draws (b : Bool) (s : State) : (dataSymbol b s).draws = s.draws := by
  obtain ⟨w, symbol, -⟩ := dataSymbol_waveform b s
  rw [symbol]

theorem frameBits_draws {s : State} (cleared : countedBits 0 s) {n : Nat} (hn : n ≤ 32) :
    (frameBits s.cmd (bitIndexes.take n) s).draws = s.draws := by
  induction n, hn using bitIndex_induction with
  | zero => rfl
  | next i ih =>
    obtain ⟨-, total⟩ := frameBits_countedBits cleared i.isLt.le
    have bound := i.isLt
    rw [frameBits_take_succ, frameBits_singleton, tally_draws, dataSymbol_draws]
    · exact ih
    · simp only [dataSymbol_ones, dataSymbol_zeros]
      omega

theorem framePacket_draws {s : State} (cleared : countedBits 0 s) : (framePacket s.cmd s).draws = s.draws := by
  obtain ⟨w, header, -⟩ := headerSymbol_waveform s
  obtain ⟨v, footer, -⟩ := footerSymbol_waveform (frameBits s.cmd bitIndexes (headerSymbol s))
  have clearedHeader : countedBits 0 (headerSymbol s) := by rw [header]; exact cleared
  have kept := frameBits_draws clearedHeader (le_refl 32)
  rw [headerSymbol_cmd] at kept
  rw [framePacket, footer]
  exact kept.trans (by rw [header])

/-- A packet's symbols count the bits of the command they send, whatever `CMD` holds, and draw no free value. -/
theorem SameFraming.framePacket_statistics {s u : State} (same : SameFraming s u) (cleared : countedBits 0 u) :
    (Machine.framePacket u.cmd s).ones.toNat = popcount u.cmd
      ∧ (Machine.framePacket u.cmd s).ones.toNat + (Machine.framePacket u.cmd s).zeros.toNat = 32
      ∧ (Machine.framePacket u.cmd s).draws = s.draws := by
  obtain ⟨-, ones, zeros, draws⟩ := same.framePacket u.cmd
  obtain ⟨counted, total⟩ := framePacket_countedBits cleared
  rw [framePacket_cmd] at counted
  rw [ones, zeros, draws, same.draws]
  exact ⟨counted, total, framePacket_draws cleared⟩

theorem framePacket_clearStatistics_statistics (cmd : Word) (s : State) :
    (framePacket cmd (clearStatistics s)).ones.toNat = popcount cmd
      ∧ (framePacket cmd (clearStatistics s)).ones.toNat + (framePacket cmd (clearStatistics s)).zeros.toNat = 32
      ∧ (framePacket cmd (clearStatistics s)).draws = s.draws :=
  SameFraming.framePacket_statistics (u := { clearStatistics s with cmd := cmd }) ⟨rfl, rfl, rfl, rfl⟩ ⟨rfl, rfl⟩

/-- Settles O37: the output, the frame and the statistics are those of the packet's symbols, and `ELAPSED` is the closed form of
`TotalTime` (R79). -/
theorem transmitSendsPacket : Obligations.TransmitSendsPacket := by
  intro cmd s
  have sent := outputLevels_framePacket cmd (clearStatistics s)
  have statistics := framePacket_clearStatistics_statistics cmd s
  obtain ⟨w, o, z, d, frame⟩ := framePacket_frame cmd (clearStatistics s)
  rw [frame] at sent statistics
  obtain ⟨ones, total, rfl⟩ : o.toNat = popcount cmd ∧ o.toNat + z.toNat = 32 ∧ d = s.draws := statistics
  refine ⟨w, o, z, BitVec.ofNat 17 (totalTime o z), ?_, sent, ones, total, ?_⟩
  · refine congrArg Host.Outcome.next ?_
    rw [transmit_eq, frame]
    rfl
  · rw [totalTime_eq, BitVec.toNat_ofNat]
    omega

end Sys2Proof.Machine
end

section
/-! The offsets of the packet's symbols in the tick machine (O49): the ticks up to each symbol do what the symbols before it do. -/

namespace Sys2Proof.Machine

/-- The ticks of the header's burst load its space (R97). -/
theorem ticks_headerMark (s : State) :
    Leads 2002 (burstEntry (inPhase phaseHmark 0#5 s)) { inPhase phaseHspace 0#5 (emitPulses 77 s) with rem := 1998#17 } :=
  ticks_mark (n := 77) (by decide) (by decide) (by decide) (by decide) (by decide) (fun _ => phaseTick_hmark) 0#5 s

theorem onesAmong_take_le (cmd : Word) (n : Nat) : onesAmong cmd (bitIndexes.take n) ≤ 32 :=
  List.countP_le_length.trans (List.length_take_le' n bitIndexes)

/-- From a boundary tick the ticks of the header and the first `n` data bits enter the burst that follows them (R75). -/
theorem run_bits {s : State} (hb : atBoundary s = true) (hr : noResetWithin 100000 s) {n : Nat} (hn : n ≤ 32) :
    ∃ t u, run (4000 + 600 * n + 400 * onesAmong (polledCommand s) (bitIndexes.take n)) s = .next t
      ∧ blockOf t = bitEntry n u := by
  have bound := onesAmong_take_le (polledCommand s) n
  have ticks := (ticks_header (packetStart s)).trans (ticks_bits (headerSymbol (packetStart s)) hn)
  rw [headerSymbol_cmd, packetStart_cmd, ← Nat.add_assoc] at ticks
  obtain ⟨t, reached, block, -⟩ := run_of_boundary (by omega) hb (noResetWithin_mono (by omega) hr) ticks
  exact ⟨t, _, reached, block⟩

/-- A block at the start of a burst holds the burst's first registers (R63). -/
theorem fields_of_burstEntry {s t : State} (h : blockOf t = burstEntry s) :
    t.phase = s.phase ∧ t.bitidx = s.bitidx ∧ t.cyc = 0#7 ∧ t.half = false ∧ t.rem = 13#17 :=
  ⟨(congrArg State.phase h :), (congrArg State.bitidx h :), (congrArg State.cyc h :), (congrArg State.half h :),
    (congrArg State.rem h :)⟩

/-- Settles O49. -/
theorem packetOffsets : Obligations.PacketOffsets := by
  intro s hb hr
  refine ⟨?_, fun i hi => ?_, ?_⟩
  · obtain ⟨t, reached, block, -⟩ :=
      run_of_boundary (by decide) hb (noResetWithin_mono (by decide) hr) (ticks_headerMark (packetStart s))
    exact ⟨t, reached, (congrArg State.phase block :), (congrArg State.rem block :)⟩
  · obtain ⟨t, u, reached, block⟩ := run_bits hb hr hi.le
    rw [bitEntry, if_pos hi] at block
    exact ⟨t, reached, fields_of_burstEntry block⟩
  · obtain ⟨t, u, reached, block⟩ := run_bits hb hr (le_refl 32)
    obtain ⟨phase, -, burst⟩ := fields_of_burstEntry block
    exact ⟨t, reached, phase, burst⟩

end Sys2Proof.Machine
end

section
/-! The rate pacer: the closed forms of its values and their ranges (O43 to O45), `RESIDUAL_DELAY` and `PACE_WAIT` (O42, O40), and the
clamp with the overrun counter, for any target period (O46) and with this hardware's constants (O47). -/

namespace Sys2Proof.Machine

/-! ### The residual -/

/-- The residual (R81) with `TotalTime` in its closed form (R79). -/
theorem residualOf_eq (target : Nat) (o z : Count) :
    residualOf target o z = target - 14296 - 688 * o.toNat - 288 * z.toNat := by
  rw [residualOf, totalTime_eq]
  omega

/-- With this hardware's target period (R80). -/
theorem residualOf_targetPeriod (o z : Count) :
    residualOf Config.targetPeriod o z = 85704 - 688 * o.toNat - 288 * z.toNat := by
  rw [residualOf_eq, show Config.targetPeriod = 100000 from rfl]
  omega

/-- Whatever the statistics hold, the residual fits `RESID` (R86). -/
theorem toInt_residualOf_targetPeriod (o z : Count) :
    (BitVec.ofInt 32 (residualOf Config.targetPeriod o z)).toInt = residualOf Config.targetPeriod o z := by
  have positive := residualOf_pos o z
  have bound := residualOf_targetPeriod o z
  rw [BitVec.toInt_ofInt]
  exact Int.bmod_eq_of_le (by omega) (by omega)

/-- R79's closed form of the residual on the counts of a packet (R72). -/
theorem residualOf_targetPeriod_of_packet {o z : Count} (packet : o.toNat + z.toNat = 32) :
    residualOf Config.targetPeriod o z = 76488 - 400 * o.toNat := by
  rw [residualOf_targetPeriod]
  omega

/-- R79's closed form of the time on the counts of a packet (R72). -/
theorem totalTime_of_packet {o z : Count} (packet : o.toNat + z.toNat = 32) : totalTime o z = 23512 + 400 * o.toNat := by
  rw [totalTime_eq]
  omega

/-! ### The clamp and the overrun counter (R82) -/

theorem coe_clampedWait (r : Int) : (clampedWait r : Int) = max 0 r := Int.toNat_of_nonneg (le_max_left 0 r)

/-- With this hardware's period the clamp never acts, whatever the statistics hold (R87). -/
theorem clampedWait_residualOf_targetPeriod (o z : Count) :
    (clampedWait (residualOf Config.targetPeriod o z) : Int) = residualOf Config.targetPeriod o z := by
  rw [coe_clampedWait, max_eq_right (residualOf_pos o z).le]

theorem toNat_overrunNext (c : BitVec 16) : (overrunNext c).toNat = min (c.toNat + 1) 0xFFFF := by
  unfold overrunNext
  split
  next saturated => rw [saturated]; rfl
  next => bv_omega

theorem overrunAfter_of_neg {r : Int} (h : r < 0) (c : BitVec 16) : overrunAfter r c = overrunNext c := by
  simp [overrunAfter, isOverrun, h]

theorem overrunAfter_of_nonneg {r : Int} (h : 0 ≤ r) (c : BitVec 16) : overrunAfter r c = c := by
  simp [overrunAfter, isOverrun, h]

/-! ### The pacer's entry (R83) -/

/-- A wait that `REM` can hold is loaded whole. -/
theorem paceEntryFor_rem {target : Nat} {s : State} (h : residualOf target s.ones s.zeros < 131072) :
    ((paceEntryFor target s).rem.toNat : Int) = max 0 (residualOf target s.ones s.zeros) := by
  have wait := coe_clampedWait (residualOf target s.ones s.zeros)
  have held : (paceEntryFor target s).rem.toNat = clampedWait (residualOf target s.ones s.zeros) :=
    Nat.mod_eq_of_lt (by omega)
  rw [held, wait]

/-- The entry at the end of a packet: each register holds its value whole (R86). -/
theorem paceEntry_values_of_packet {s : State} (packet : s.ones.toNat + s.zeros.toNat = 32) :
    (paceEntry s).elapsed.toNat = 23512 + 400 * s.ones.toNat
    ∧ (paceEntry s).resid.toInt = 76488 - 400 * s.ones.toNat
    ∧ ((paceEntry s).rem.toNat : Int) = 76488 - 400 * s.ones.toNat := by
  have time := totalTime_of_packet packet
  have residual := residualOf_targetPeriod_of_packet packet
  refine ⟨?_, ?_, ?_⟩
  · rw [← time]
    exact Nat.mod_eq_of_lt (by omega)
  · rw [← residual]
    exact toInt_residualOf_targetPeriod s.ones s.zeros
  · rw [paceEntry, paceEntryFor_rem (by omega), residual]
    omega

/-! ### The statements -/

/-- Settles O44: the closed forms over the counts' ranges. -/
theorem pacerRanges : Obligations.PacerRanges := by
  constructor
  · intro o z ho hz
    have time := totalTime_eq o z
    have residual := residualOf_targetPeriod o z
    have wait := clampedWait_residualOf_targetPeriod o z
    omega
  · intro s packet
    obtain ⟨elapsed, resid, rem⟩ := paceEntry_values_of_packet packet
    omega

/-- Settles O45: below the register's end one more or one less of a count is one more or one less of its number, so that the closed
form gives each difference. -/
theorem residualStrictlyDecreasing : Obligations.ResidualStrictlyDecreasing := by
  intro target o z
  simp only [residualOf_eq]
  refine ⟨fun ho => ?_, fun hz => ?_, fun packet hz => ?_⟩
  · have oneMore : (o + 1#6).toNat = o.toNat + 1 := by bv_omega
    omega
  · have oneMore : (z + 1#6).toNat = z.toNat + 1 := by bv_omega
    omega
  · have oneMore : (o + 1#6).toNat = o.toNat + 1 := by bv_omega
    have oneLess : (z - 1#6).toNat = z.toNat - 1 := by bv_omega
    omega

/-- Settles O46: the residual's bound serves the wait in `REM` alone; the counter turns on the residual's sign. -/
theorem overrunClampAndCount : Obligations.OverrunClampAndCount := by
  intro target s fits
  refine ⟨paceEntryFor_rem fits, fun negative => ?_, fun nonneg => overrunAfter_of_nonneg nonneg s.ovrCnt⟩
  rw [← toNat_overrunNext, ← overrunAfter_of_neg negative]
  rfl

/-- Settles O47: a reset tick clears the counter, and neither a phase's tick nor the adapter writes it. -/
theorem overrunCounterStaysZero : Obligations.OverrunCounterStaysZero := by
  refine ⟨rfl, fun s notReserved zero => ?_, rfl, fun o z packet => ⟨?_, clampedWait_residualOf_targetPeriod o z⟩⟩
  · rcases step_cases s with ⟨-, reset⟩ | ⟨-, reserved, -⟩ | ⟨-, -, tick⟩
    · exact ⟨resetTick s, reset, rfl⟩
    · exact absurd reserved notReserved
    · refine ⟨_, tick, ?_⟩
      rw [adapterTick_ovrCnt, phaseTick_ovrCnt, openTick_ovrCnt, zero]
  · have residual := residualOf_targetPeriod_of_packet packet
    omega

/-- Settles O40: the wait is a low hold of `w` ticks, which for `w = 0` emits nothing. -/
theorem paceWaitHoldsLow : Obligations.PaceWaitHoldsLow := by
  intro w s
  refine ⟨(holdLow w.toNat s).wave, ?_, outputLevels_holdLow w.toNat s, ?_⟩
  · change Host.Outcome.next (holdLow w.toNat s) = _
    by_cases noWait : w = 0#17
    · rw [if_pos noWait, noWait]
      rfl
    · have waits : w.toNat ≠ 0 := by bv_omega
      rw [if_neg noWait, holdLow, emit_pos false _ waits]
  · rintro rfl
    rfl

/-- Settles O42: the residual fits `RESID`, and R79's form is its value. -/
theorem residualDelayResult : Obligations.ResidualDelayResult := by
  intro o z s
  refine ⟨_, rfl, ?_⟩
  rw [toInt_residualOf_targetPeriod, residualOf_targetPeriod]
  omega

/-- Settles O43: the closed forms are those above, and the scenarios compute. -/
theorem pacerClosedForms : Obligations.PacerClosedForms :=
  ⟨totalTime_eq, fun _ _ packet => ⟨totalTime_of_packet packet, residualOf_targetPeriod_of_packet packet⟩, rfl, rfl, rfl, rfl⟩

end Sys2Proof.Machine
end

section
/-! The meanings of the phases and of the boundary operations, case by case: a tick that runs on (O13), the end of each phase
(O15 to O17), the boundary tick (O18), and the operations on their own (O34). -/

namespace Sys2Proof.Machine

/-! ### The tick of the wait -/

theorem exec_pace_waiting {s : State} (h : 1 ≤ s.rem.toNat) : exec .pace s = .next (ticked false s) := by
  have waits : s.rem ≠ 0#17 := by bv_omega
  have tick : exec .pace s = .next (countTick false (fun t => t) (beginTick s)) := if_neg waits
  rw [tick]
  by_cases more : 2 ≤ s.rem.toNat
  · rw [countTick_begin_running _ _ _ more]
  · have last : s.rem = 1#17 := by bv_omega
    rw [countTick_begin_last _ _ _ last]

theorem exec_pace_boundary {s : State} (h : s.rem = 0#17) :
    exec .pace s = .next (hmarkTick (boundary (signalReady (beginTick s)))) := if_pos h

/-- Settles O13: the five phases count and put out as `ticked` says, each through the same countdown. -/
theorem runningPhaseTicks : Obligations.RunningPhaseTicks := by
  refine fun s => ⟨fun more => ⟨?_, ?_, ?_, ?_, ?_⟩, exec_pace_waiting⟩
  · exact congrArg Host.Outcome.next (burstTick_begin_running 77 hmarkDone s more)
  · exact congrArg Host.Outcome.next (burstTick_begin_running 12 bmarkDone s more)
  · exact congrArg Host.Outcome.next (burstTick_begin_running 12 paceEntry s more)
  · exact congrArg Host.Outcome.next (countTick_begin_running false hspaceEnd s more)
  · exact congrArg Host.Outcome.next (countTick_begin_running false bspaceEnd s more)

/-! ### The ends of the phases -/

/-- The end of a bit-start burst loads the space of the data bit (R99). -/
theorem exec_bmark_done {s : State} (last : s.rem = 1#17) (low : s.half = true) (done : 12 ≤ (s.cyc + 1#7).toNat) :
    exec .bmark s = .next { ticked false s with
      cyc := s.cyc + 1#7, phase := phaseBspace, rem := BitVec.ofNat 17 (symbolSpace (dataBit s.cmd s.bitidx)) } :=
  congrArg Host.Outcome.next (burstTick_begin_done 12 bmarkDone s last low done)

/-- Settles O15. -/
theorem markAndHeaderSpaceEnds : Obligations.MarkAndHeaderSpaceEnds := by
  refine fun s last => ⟨fun low done => ?_, ?_, fun low done one => ?_, fun low done zero => ?_⟩
  · exact congrArg Host.Outcome.next (burstTick_begin_done 77 hmarkDone s last low done)
  · exact congrArg Host.Outcome.next (countTick_begin_last false hspaceEnd s last)
  · rw [exec_bmark_done last low done, dataBit, one]
    rfl
  · rw [exec_bmark_done last low done, dataBit, zero]
    rfl

/-- What the end of a bit's space writes (R100): the tally's statistic, the next bit's index, and the next burst's start. -/
theorem bspaceEnd_eq (s : State) :
    bspaceEnd s = { s with
      ones := (tally (dataBit s.cmd s.bitidx) s).ones
      zeros := (tally (dataBit s.cmd s.bitidx) s).zeros
      draws := (tally (dataBit s.cmd s.bitidx) s).draws
      bitidx := if s.bitidx = 31#5 then 31#5 else s.bitidx + 1#5
      phase := if s.bitidx = 31#5 then phaseFmark else phaseBmark
      cyc := 0#7, half := false, rem := 13#17 } := by
  unfold bspaceEnd
  rw [tally_frame]
  dsimp only
  split
  next last => rw [← last]; rfl
  next => rfl

/-- Settles O16: the bit decides which statistic the tally adds to, and the other one stays. -/
theorem bitSpaceEndTallies : Obligations.BitSpaceEndTallies := by
  intro s last
  have tick : exec .bspace s = .next (bspaceEnd (ticked false s)) :=
    congrArg Host.Outcome.next (countTick_begin_last false bspaceEnd s last)
  rw [bspaceEnd_eq] at tick
  refine ⟨_, _, _, tick, fun (one : dataBit s.cmd s.bitidx = true) => ?_, fun (zero : dataBit s.cmd s.bitidx = false) => ?_⟩
  · rw [ticked_cmd, ticked_bitidx, one]
    refine ⟨rfl, fun room => ?_⟩
    rw [tally_true (ticked false s) room]
    exact ⟨rfl, rfl⟩
  · rw [ticked_cmd, ticked_bitidx, zero]
    refine ⟨rfl, fun room => ?_⟩
    rw [tally_false (ticked false s) room]
    exact ⟨rfl, rfl⟩

/-- Whatever the statistics hold, each register holds the pacer's value whole (R83, R86). -/
theorem paceEntry_values (s : State) :
    (paceEntry s).elapsed.toNat = totalTime s.ones s.zeros
      ∧ (paceEntry s).resid.toInt = residualOf Config.targetPeriod s.ones s.zeros
      ∧ ((paceEntry s).rem.toNat : Int) = residualOf Config.targetPeriod s.ones s.zeros := by
  have time := totalTime_eq s.ones s.zeros
  have positive := residualOf_pos s.ones s.zeros
  have residual := residualOf_targetPeriod s.ones s.zeros
  refine ⟨Nat.mod_eq_of_lt ?_, toInt_residualOf_targetPeriod s.ones s.zeros, ?_⟩
  · have onesBound := s.ones.isLt
    have zerosBound := s.zeros.isLt
    omega
  · rw [paceEntry, paceEntryFor_rem (by omega)]
    omega

/-- What the pacer's entry writes: its results, the wait and the phase. -/
theorem paceEntry_frame (s : State) :
    paceEntry s = { s with
      elapsed := (paceEntry s).elapsed, resid := (paceEntry s).resid, rem := (paceEntry s).rem, phase := phasePace } := by
  conv => lhs; rw [paceEntry_eq]
  rfl

/-- Settles O17: the footer's last tick is the pacer's entry, with R79's closed form of its values. -/
theorem footerEndEntersPace : Obligations.FooterEndEntersPace := by
  intro s last low done
  have tick : exec .fmark s = .next (paceEntry { ticked false s with cyc := s.cyc + 1#7 }) :=
    congrArg Host.Outcome.next (burstTick_begin_done 12 paceEntry s last low done)
  obtain ⟨elapsed, resid, rem⟩ := paceEntry_values { ticked false s with cyc := s.cyc + 1#7 }
  rw [paceEntry_frame] at tick
  refine ⟨_, _, _, tick, elapsed.trans (totalTime_eq s.ones s.zeros), resid.trans ?_, rem.trans resid.symm⟩
  rw [residualOf, totalTime_eq]
  rfl

/-! ### The boundary -/

/-- Settles O18: both boundary ticks run the boundary actions and the header's first tick, the strobe apart. -/
theorem boundaryTickStartsPacket : Obligations.BoundaryTickStartsPacket := by
  refine fun s => ⟨?_, fun waited => ?_⟩
  · exact congrArg Host.Outcome.next (hmarkTick_boundary (beginTick s))
  · rw [exec_pace_boundary waited, hmarkTick_boundary]
    rfl

/-- Settles O34: each operation is its one write, and the poll of an empty mailbox is none. -/
theorem boundaryOperations : Obligations.BoundaryOperations := by
  refine fun s => ⟨fun pending => ?_, fun empty => ?_, rfl, rfl, fun _ => rfl⟩
  · exact congrArg Host.Outcome.next (if_pos pending)
  · exact congrArg Host.Outcome.next (if_neg (by simp [empty]))

/-- Settles O8: a phase code's decoding is what `step` runs. -/
theorem stepRunsDecodedInstruction : Obligations.StepRunsDecodedInstruction := by
  intro s i noReset decoded
  cases decoded
  exact step_tick s noReset

end Sys2Proof.Machine
end

section
/-! What the ticks of the five phases between two boundaries leave unchanged (O19): a tick that passes writes the output and the
countdown; a phase's end writes registers of the sequencer, the statistics in BSPACE alone and the pacer's results in FMARK alone. -/

namespace Sys2Proof.Machine

/-- What a phase may write after the output: registers of `withSequencerOf`, but the statistics and the bit's index in BSPACE only,
and the pacer's results in FMARK only. -/
structure PhaseWrites (i : Instr) (s t : State) : Prop where
  sequencer : t = withSequencerOf t s
  statistics : i ≠ .bspace → t.ones = s.ones ∧ t.zeros = s.zeros ∧ t.bitidx = s.bitidx
  results : i ≠ .fmark → t.elapsed = s.elapsed ∧ t.resid = s.resid

theorem PhaseWrites.trans {i : Instr} {s t u : State} (h : PhaseWrites i s t) (h' : PhaseWrites i t u) :
    PhaseWrites i s u := by
  refine ⟨?_, fun hi => ?_, fun hi => ?_⟩
  · rw [h'.sequencer, h.sequencer]
    rfl
  · obtain ⟨ones, zeros, bitidx⟩ := h.statistics hi
    obtain ⟨ones', zeros', bitidx'⟩ := h'.statistics hi
    exact ⟨ones'.trans ones, zeros'.trans zeros, bitidx'.trans bitidx⟩
  · obtain ⟨elapsed, resid⟩ := h.results hi
    obtain ⟨elapsed', resid'⟩ := h'.results hi
    exact ⟨elapsed'.trans elapsed, resid'.trans resid⟩

/-! ### The countdown, the burst and the phases' ends -/

theorem decRem_phaseWrites (i : Instr) (s : State) : PhaseWrites i s (decRem s) :=
  ⟨decRem_eq_withSequencerOf s, by simp, by simp⟩

theorem burstRegisters_phaseWrites (i : Instr) (s : State) (c : Cycles) (k : Bool) (r : Ticks) :
    PhaseWrites i s { s with cyc := c, half := k, rem := r } :=
  ⟨rfl, fun _ => ⟨rfl, rfl, rfl⟩, fun _ => ⟨rfl, rfl⟩⟩

theorem hmarkDone_phaseWrites (s : State) : PhaseWrites .hmark s (hmarkDone s) :=
  ⟨rfl, fun _ => ⟨rfl, rfl, rfl⟩, fun _ => ⟨rfl, rfl⟩⟩

theorem hspaceEnd_phaseWrites (s : State) : PhaseWrites .hspace s (hspaceEnd s) :=
  ⟨rfl, fun _ => ⟨rfl, rfl, rfl⟩, fun _ => ⟨rfl, rfl⟩⟩

theorem bmarkDone_phaseWrites (s : State) : PhaseWrites .bmark s (bmarkDone s) :=
  ⟨rfl, fun _ => ⟨rfl, rfl, rfl⟩, fun _ => ⟨rfl, rfl⟩⟩

theorem bspaceEnd_phaseWrites (s : State) : PhaseWrites .bspace s (bspaceEnd s) :=
  ⟨bspaceEnd_eq_withSequencerOf s, fun other => absurd rfl other, fun _ => by rw [bspaceEnd_eq]; exact ⟨rfl, rfl⟩⟩

theorem paceEntry_phaseWrites (s : State) : PhaseWrites .fmark s (paceEntry s) :=
  ⟨paceEntry_eq_withSequencerOf s, fun _ => ⟨rfl, rfl, rfl⟩, fun other => absurd rfl other⟩

/-! ### The five phases -/

section
variable {i : Instr} {f : State → State} (hf : ∀ t, PhaseWrites i t (f t)) (s : State)
include hf

theorem countTick_phaseWrites (l : Bool) : PhaseWrites i (emit l 1 s) (countTick l f s) :=
  countTick_keeps (PhaseWrites i (emit l 1 s)) l f s (decRem_phaseWrites i _) fun t h => h.trans (hf t)

theorem burstTick_phaseWrites (n : Nat) : PhaseWrites i (emit (!s.half) 1 s) (burstTick n f s) :=
  burstTick_keeps (PhaseWrites i (emit (!s.half) 1 s)) n f s (decRem_phaseWrites i _)
    (fun t c k r h => h.trans (burstRegisters_phaseWrites i t c k r)) fun t h => h.trans (hf t)

end

/-- Each of the five phases is a tick at the level R96 gives it, and what the phase may write. -/
theorem exec_phaseWrites (s : State) {i : Instr} (hi : i ∈ [Instr.hmark, .hspace, .bmark, .bspace, .fmark]) :
    ∃ t, exec i s = .next t
      ∧ PhaseWrites i (emit (!s.half && decide (i = .hmark ∨ i = .bmark ∨ i = .fmark)) 1 (beginTick s)) t := by
  have burstLevel : (!s.half && true) = !s.half := Bool.and_true _
  have spaceLevel : (!s.half && false) = false := Bool.and_false _
  simp only [List.mem_cons, List.not_mem_nil, or_false] at hi
  rcases hi with rfl | rfl | rfl | rfl | rfl
  · exact ⟨_, rfl, burstLevel.symm ▸ burstTick_phaseWrites hmarkDone_phaseWrites (beginTick s) 77⟩
  · exact ⟨_, rfl, spaceLevel.symm ▸ countTick_phaseWrites hspaceEnd_phaseWrites (beginTick s) false⟩
  · exact ⟨_, rfl, burstLevel.symm ▸ burstTick_phaseWrites bmarkDone_phaseWrites (beginTick s) 12⟩
  · exact ⟨_, rfl, spaceLevel.symm ▸ countTick_phaseWrites bspaceEnd_phaseWrites (beginTick s) false⟩
  · exact ⟨_, rfl, burstLevel.symm ▸ burstTick_phaseWrites paceEntry_phaseWrites (beginTick s) 12⟩

/-- Settles O19: the tick's output and ports, and what the phase may write beside them. -/
theorem phaseTickFrame : Obligations.PhaseTickFrame := by
  intro s i hi
  obtain ⟨t, run, sequencer, statistics, results⟩ := exec_phaseWrites s hi
  refine ⟨t, run, ?_, ?_, ?_, ?_, ?_, ?_, ?_, ?_, ?_, ?_, ?_, ?_, statistics, results⟩
  all_goals
    rw [sequencer]
    rfl

end Sys2Proof.Machine
end

section
/-! What every step does to the phase and the output (O9, O20, O21): the phase's tick writes one of the seven used codes and adds one
tick to the record, at the level it drives. -/

namespace Sys2Proof.Machine

/-! ### The phase -/

/-- No phase's end enters the reserved code (R103). -/
theorem phaseTick_phase_ne_reserved {s : State} (h : s.phase ≠ phaseReserved) : (phaseTick s).phase ≠ phaseReserved := by
  refine phaseTick_keeps (fun t => t.phase ≠ phaseReserved) s (fun _ => ?_) (fun _ => ?_) (fun _ _ _ _ _ ht => ht)
    fun _ t _ => ⟨?_, ?_, ?_, ?_, ?_⟩
  · exact (by decide : phaseHmark ≠ phaseReserved)
  · rwa [decRem_phase, emit_phase, beginTick_phase]
  · exact (by decide : phaseHspace ≠ phaseReserved)
  · exact (by decide : phaseBmark ≠ phaseReserved)
  · exact (by decide : phaseBspace ≠ phaseReserved)
  · rw [bspaceEnd_eq]
    dsimp only
    split <;> decide
  · exact (by decide : phasePace ≠ phaseReserved)

/-- Outside the reserved code every tick completes (R106, R118). -/
theorem step_completes {s : State} (h : s.phase ≠ phaseReserved) : ∃ t, step s = .next t := by
  rcases step_cases s with ⟨-, reset⟩ | ⟨-, reserved, -⟩ | ⟨-, -, tick⟩
  · exact ⟨_, reset⟩
  · exact absurd reserved h
  · exact ⟨_, tick⟩

/-- Settles O9: of the cases of a step only the reserved code's is a fault, and neither of the others leaves that code. -/
theorem onlyReservedPhaseStops : Obligations.OnlyReservedPhaseStops := by
  refine ⟨fun _ => rfl, fun s noReset reserved => ?_, fun s t hstep => ?_, fun s => step_completes⟩
  · rw [step_tick s noReset, reserved]
    rfl
  · rcases step_cases s with ⟨-, reset⟩ | ⟨-, -, fault⟩ | ⟨-, notReserved, tick⟩
    · rw [reset] at hstep
      cases hstep
      exact (by decide : phaseStart ≠ phaseReserved)
    · rw [fault] at hstep
      cases hstep
    · rw [tick] at hstep
      cases hstep
      rw [adapterTick_phase]
      exact phaseTick_phase_ne_reserved (s := openTick s) notReserved

/-! ### The output -/

/-- R96: the boundary tick drives 1, and every other tick the level of its phase. -/
theorem phaseTick_irOut (s : State) : (phaseTick s).irOut = (atBoundary s || (burstPhase s.phase && !s.half)) := by
  cases h : atBoundary s
  · exact (congrArg State.irOut (phaseTick_off_boundary s h) :)
  · rw [phaseTick_boundary s h]
    rfl

theorem burstPhase_iff (p : PhaseCode) : burstPhase p = true ↔ p = phaseHmark ∨ p = phaseBmark ∨ p = phaseFmark := by
  simp [burstPhase, or_assoc]

/-- Settles O20: the adapter's part of the tick leaves the level that the phase's tick drives. -/
theorem outputLevelRule : Obligations.OutputLevelRule := by
  refine fun s => ⟨fun reset => ⟨resetTick s, step_reset s reset, rfl⟩, fun noReset notReserved => ?_⟩
  refine ⟨_, step_phase s noReset notReserved, ?_⟩
  rw [adapterTick_irOut, phaseTick_irOut, atBoundary_openTick, openTick_phase, openTick_half, Bool.or_eq_true,
    Bool.and_eq_true, burstPhase_iff, Bool.not_eq_true']

theorem phaseTick_wave_eq (s : State) : (phaseTick s).wave = record (phaseTick s).irOut 1 s.wave := by
  rw [phaseTick_irOut]
  cases h : atBoundary s
  · exact (congrArg State.wave (phaseTick_off_boundary s h) :)
  · rw [phaseTick_boundary s h]
    rfl

/-- R107: a step that completes adds the level it drove to the record, a reset tick too. -/
theorem outputLevels_of_step {s t : State} (h : step s = .next t) : outputLevels t = outputLevels s ++ [t.irOut] := by
  have recorded : t.wave = record t.irOut 1 s.wave := by
    rcases step_cases s with ⟨-, reset⟩ | ⟨-, -, fault⟩ | ⟨-, -, tick⟩
    · rw [reset] at h
      cases h
      rfl
    · rw [fault] at h
      cases h
    · rw [tick] at h
      cases h
      rw [adapterTick_wave, adapterTick_irOut, phaseTick_wave_eq, openTick_wave]
  rw [outputLevels, recorded, levels_record]
  rfl

/-- Settles O21. -/
theorem recordFollowsOutput : Obligations.RecordFollowsOutput := by
  intro s notReserved
  obtain ⟨t, tick⟩ := step_completes notReserved
  exact ⟨t, tick, outputLevels_of_step tick⟩

end Sys2Proof.Machine
end

section
/-! The adapter's part of a step (O26, O32, O53): the phase's tick leaves the adapter, the port and the byte to the host as the tick
opened them, so that what they show at its end is the sentinel's and the arrival's. -/

namespace Sys2Proof.Machine

/-! ### What the phase's tick leaves to the adapter -/

theorem phaseTick_held (s : State) : (phaseTick s).held = s.held := by
  cases h : atBoundary s
  · exact (congrArg State.held (phaseTick_off_boundary s h) :)
  · rw [phaseTick_boundary s h]

theorem phaseTick_updPort (s : State) : (phaseTick s).updPort = s.updPort := by
  cases h : atBoundary s
  · exact (congrArg State.updPort (phaseTick_off_boundary s h) :)
  · rw [phaseTick_boundary s h]

theorem phaseTick_hostTx (s : State) : (phaseTick s).hostTx = s.hostTx := by
  cases h : atBoundary s
  · exact (congrArg State.hostTx (phaseTick_off_boundary s h) :)
  · rw [phaseTick_boundary s h]

/-- A phase's tick fills no mailbox: the boundary's poll empties it (R93), and no other tick writes it. -/
theorem phaseTick_mailbox {s : State} (h : (phaseTick s).mbxV = true) : s.mbxV = true ∧ (phaseTick s).mbx = s.mbx := by
  cases hb : atBoundary s
  · have frame := phaseTick_off_boundary s hb
    have mbxV : (phaseTick s).mbxV = s.mbxV := (congrArg State.mbxV frame :)
    exact ⟨mbxV.symm.trans h, (congrArg State.mbx frame :)⟩
  · rw [phaseTick_boundary s hb] at h
    cases h

/-! ### The adapter's part of a tick -/

theorem adapterTick_updPort_no_delivery {a : Arrival} {s : State} (h : delivers a s.held = false) :
    (adapterTick a s).updPort = s.updPort := by
  unfold adapterTick
  split
  · obtain ⟨held, arrival⟩ := arrive_no_delivery a (sendReadyByte s) h
    rw [arrival]
    rfl
  · obtain ⟨held, arrival⟩ := arrive_no_delivery a s h
    rw [arrival]

/-- The adapter sends the sentinel for a ready strobe (R112), and nothing else. -/
theorem adapterTick_hostTx (a : Arrival) (s : State) :
    (adapterTick a s).hostTx = if s.ready then some Config.readyByte else s.hostTx := by
  rw [adapterTick, arrive_hostTx]
  split <;> rfl

/-- The byte that completes a group adds to the tick without it the delivery alone (R95, R109, R110). -/
theorem adapterTick_delivery {b0 b1 b2 : Byte} (b3 : Byte) {s : State} (h : s.held = .three b0 b1 b2) :
    adapterTick (.byte b3) s = { adapterTick .nothing s with
      held := .zero, updPort := some (packWord b0 b1 b2 b3), mbx := packWord b0 b1 b2 b3, mbxV := true } :=
  adapterTick_completes b3 h

/-! ### The statements -/

/-- Settles O26: both ticks run the same phase's tick, and the arriving byte adds its delivery; a reset tick takes no arrival. -/
theorem mailboxWriteRule : Obligations.MailboxWriteRule := by
  constructor
  · intro s b0 b1 b2 b3 group input notReserved
    have noReset : (nextInput s).rst = false := by rw [input]
    have held : (phaseTick (openTick s)).held = .three b0 b1 b2 := (phaseTick_held (openTick s)).trans group
    refine ⟨_, step_phase (withNextInput ⟨false, .nothing⟩ s) rfl notReserved, ?_⟩
    rw [step_phase s noReset notReserved, input, adapterTick_delivery b3 held]
    rfl
  · intro s b input
    have reset : (nextInput s).rst = true := by rw [input]
    exact ⟨_, step_reset s reset, step_reset (withNextInput ⟨true, .nothing⟩ s) rfl⟩

/-- Settles O32: without a delivery the port stays as the tick opened it. -/
theorem groupDeliveryTick : Obligations.GroupDeliveryTick := by
  refine fun s noReset notReserved => ⟨fun b0 b1 b2 b3 group last => ?_, fun noDelivery => ?_⟩
  · refine ⟨_, step_phase s noReset notReserved, ?_⟩
    rw [last, adapterTick_delivery b3 ((phaseTick_held (openTick s)).trans group)]
    exact ⟨rfl, rfl, rfl, rfl⟩
  · refine ⟨_, step_phase s noReset notReserved, ?_⟩
    rw [adapterTick_updPort_no_delivery (by rwa [phaseTick_held]), phaseTick_updPort, openTick_updPort]

/-- In a tick of a phase, an update on the port is the group that the arriving byte completes (R110, R117). -/
theorem group_of_updPort {a : Arrival} {s : State} {w : Word}
    (h : (adapterTick a (phaseTick (openTick s))).updPort = some w) :
    ∃ b0 b1 b2 b3 : Byte, s.held = .three b0 b1 b2 ∧ a = .byte b3 ∧ w = b0 ++ b1 ++ b2 ++ b3
      ∧ (adapterTick a (phaseTick (openTick s))).held = .zero ∧ (adapterTick a (phaseTick (openTick s))).mbx = w := by
  cases hd : delivers a s.held
  · rw [adapterTick_updPort_no_delivery (by rwa [phaseTick_held]), phaseTick_updPort, openTick_updPort] at h
    cases h
  · obtain ⟨b0, b1, b2, b3, group, rfl⟩ := eq_three_of_delivers hd
    rw [adapterTick_delivery b3 ((phaseTick_held (openTick s)).trans group)] at h ⊢
    cases h
    exact ⟨b0, b1, b2, b3, group, rfl, rfl, rfl, rfl⟩

/-- In a tick of a phase that delivers nothing, an update in the mailbox was there before. -/
theorem mailbox_of_no_update {a : Arrival} {s : State} (port : (adapterTick a (phaseTick (openTick s))).updPort = none)
    (full : (adapterTick a (phaseTick (openTick s))).mbxV = true) :
    s.mbxV = true ∧ (adapterTick a (phaseTick (openTick s))).mbx = s.mbx := by
  cases hd : delivers a s.held
  · obtain ⟨mbx, mbxV⟩ := adapterTick_no_delivery (s := phaseTick (openTick s)) (by rwa [phaseTick_held])
    rw [mbxV] at full
    rw [mbx]
    exact phaseTick_mailbox full
  · obtain ⟨b0, b1, b2, b3, group, rfl⟩ := eq_three_of_delivers hd
    rw [adapterTick_delivery b3 ((phaseTick_held (openTick s)).trans group)] at port
    cases port

/-- In a tick of a phase no byte but the sentinel goes to the host (R112). -/
theorem sentinel_of_hostTx {a : Arrival} {s : State} {b : Byte}
    (h : (adapterTick a (phaseTick (openTick s))).hostTx = some b) : b = 129#8 := by
  rw [adapterTick_hostTx, phaseTick_hostTx, openTick_hostTx] at h
  split at h
  · cases h
    rfl
  · cases h

/-- Settles O53: a reset tick shows no update, no full mailbox and no byte; in a tick of a phase they are the adapter's. -/
theorem onlyCompleteGroupsAreDelivered : Obligations.OnlyCompleteGroupsAreDelivered := by
  intro s t hstep
  rcases step_cases s with ⟨-, reset⟩ | ⟨-, -, fault⟩ | ⟨noReset, -, tick⟩
  · rw [reset] at hstep
    cases hstep
    refine ⟨fun w port => ?_, fun _ full => ?_, fun b byte => ?_⟩
    · cases port
    · cases full
    · cases byte
  · rw [fault] at hstep
    cases hstep
  · rw [tick] at hstep
    cases hstep
    refine ⟨fun w port => ?_, mailbox_of_no_update, fun b => sentinel_of_hostTx⟩
    obtain ⟨b0, b1, b2, b3, group, last, word, held, mbx⟩ := group_of_updPort port
    refine ⟨b0, b1, b2, b3, group, ?_, word, held, mbx⟩
    rw [← noReset, ← last]

end Sys2Proof.Machine
end

section
/-! The packet cycle (O48, O50, O51): after the packet's ticks the wait's ticks hold the output low and lead to the next boundary,
100000 ticks after the first; and the record a run adds is the output's trace, tick by tick. -/

namespace Sys2Proof.Machine

/-! ### The ticks of the cycle -/

/-- The pacer's entry starts the wait with the packet's residual (R83, R102). -/
theorem paceEntry_inPhase {s : State} (counts : countedBits 32 s) (p : PhaseCode) (i : BitIndex) :
    paceEntry (inPhase p i s) =
      { inPhase phasePace i (paceEntry s) with rem := BitVec.ofNat 17 (76488 - 400 * popcount s.cmd) } := by
  obtain ⟨wait, -⟩ := paceEntry_wait counts
  rw [← wait, BitVec.ofNat_toNat, BitVec.setWidth_eq, paceEntry_eq, paceEntry_eq]
  rfl

/-- The wait's ticks (R102) do what `PACE_WAIT` of the residual does (R84), and nothing happens at their end. -/
theorem ticks_wait {s : State} (counts : countedBits 32 s) (p : PhaseCode) (i : BitIndex) :
    Leads (76488 - 400 * popcount s.cmd) (paceEntry (inPhase p i s))
      (inPhase phasePace i (holdLow (76488 - 400 * popcount s.cmd) (paceEntry s))) := by
  have bound := popcount_le s.cmd
  rw [paceEntry_inPhase counts]
  exact ticks_space (f := fun t => t) (by omega) (by omega) (by decide) (by decide) (by decide)
    (fun _ phase last => phaseTick_pace phase (by rw [last]; decide)) i (paceEntry s)

/-- The block's state at the end of a packet cycle of the state's command: the packet and the wait run to their end. -/
def cycleEnd (s : State) : State :=
  inPhase phasePace 31#5 (holdLow (76488 - 400 * popcount s.cmd) (paceEntry (framePacket s.cmd s)))

/-- A packet cycle lasts the target period, whatever the command (R104). -/
theorem ticks_cycle {s : State} (cleared : countedBits 0 s) :
    Leads 100000 (burstEntry (inPhase phaseHmark 0#5 s)) (cycleEnd s) := by
  have bound := popcount_le s.cmd
  have wait := ticks_wait (framePacket_countedBits cleared) phaseFmark 31#5
  rw [framePacket_cmd] at wait
  have total : 100000 = 23512 + 400 * popcount s.cmd + (76488 - 400 * popcount s.cmd) := by omega
  rw [total]
  exact (ticks_packet s).trans wait

theorem packetStart_cleared (s : State) : countedBits 0 (packetStart s) := by
  rw [packetStart, pollUpdate_eq]
  exact ⟨rfl, rfl⟩

/-- From a boundary tick the cycle's ticks end the cycle, whatever the environment does, if no reset comes. -/
theorem run_cycle {s : State} (hb : atBoundary s = true) (hr : noResetWithin 100000 s) :
    ∃ t, run 100000 s = .next t ∧ blockOf t = cycleEnd (packetStart s) := by
  obtain ⟨t, reached, block, -⟩ := run_of_boundary (by decide) hb hr (ticks_cycle (packetStart_cleared s))
  exact ⟨t, reached, block⟩

/-! ### No boundary within the cycle -/

theorem Leads.take {n k : Nat} {s t : State} (h : Leads n s t) (hk : k ≤ n) : Leads k s (tickN k s) :=
  ⟨rfl, fun j hj => h.2 j (hj.trans_le hk)⟩

/-- The tick after a boundary tick is in the header. -/
theorem run_one_of_boundary {s : State} (hb : atBoundary s = true) (hr : (nextInput s).rst = false) :
    ∃ u, run 1 s = .next u ∧ atBoundary u = false := by
  have tick := step_phase s hr (phase_ne_reserved_of_atBoundary hb)
  refine ⟨_, run_succ_next 0 s _ tick, not_boundary_of_rem _ ?_ ?_⟩
  · rw [adapterTick_phase, phaseTick_boundary (openTick s) hb]
    exact (by decide : phaseHmark ≠ phaseStart)
  · rw [adapterTick_rem, phaseTick_boundary (openTick s) hb]
    exact (by decide : 12#17 ≠ 0#17)

/-- Within the cycle every tick starts off the boundary (R104). -/
theorem run_within_cycle {s : State} (hb : atBoundary s = true) (hr : noResetWithin 100000 s) {k : Nat} (pos : 0 < k)
    (hk : k < 100000) : ∃ u, run k s = .next u ∧ atBoundary u = false := by
  by_cases first : k = 1
  · rw [first]
    exact run_one_of_boundary hb (nextInput_noReset hr)
  · have cycle := ticks_cycle (packetStart_cleared s)
    obtain ⟨u, reached, block, -⟩ := run_of_boundary (by omega) hb (noResetWithin_mono hk.le hr) (cycle.take hk.le)
    obtain ⟨off, -⟩ := cycle.2 k hk
    rw [← block] at off
    exact ⟨u, reached, off⟩

/-- Settles O48: the cycle's ticks lead to the wait's end, and pass no boundary. -/
theorem packetCyclePeriod : Obligations.PacketCyclePeriod := by
  intro s hb hr
  obtain ⟨t, reached, block⟩ := run_cycle hb hr
  exact ⟨⟨t, reached, (congrArg State.phase block :), (congrArg State.rem block :)⟩, fun k => run_within_cycle hb hr⟩

/-! ### The record of the cycle -/

theorem outputLevels_packetStart (s : State) : outputLevels (packetStart s) = outputLevels s := by
  rw [packetStart, pollUpdate_eq]
  rfl

theorem outputLevels_blockOf (s : State) : outputLevels (blockOf s) = outputLevels s := rfl

theorem outputLevels_inPhase (p : PhaseCode) (i : BitIndex) (s : State) : outputLevels (inPhase p i s) = outputLevels s := rfl

theorem outputLevels_paceEntry (s : State) : outputLevels (paceEntry s) = outputLevels s := rfl

/-- After the packet's ticks the record has gained the packet (R105). -/
theorem outputLevels_of_packet {s t : State}
    (block : blockOf t = paceEntry (inPhase phaseFmark 31#5 (framePacket (polledCommand s) (packetStart s)))) :
    outputLevels t = outputLevels s ++ levels (packet (polledCommand s)) := by
  rw [← outputLevels_blockOf, block, outputLevels_paceEntry, outputLevels_inPhase, outputLevels_framePacket,
    outputLevels_packetStart]

/-- After the cycle's ticks it has gained the packet and the low wait (R105). -/
theorem outputLevels_of_cycle {s t : State} (block : blockOf t = cycleEnd (packetStart s)) :
    outputLevels t = outputLevels s ++ levels (packet (polledCommand s))
      ++ List.replicate (76488 - 400 * popcount (polledCommand s)) false := by
  rw [← outputLevels_blockOf, block, cycleEnd, outputLevels_inPhase, outputLevels_holdLow, outputLevels_paceEntry,
    outputLevels_framePacket, outputLevels_packetStart, packetStart_cmd]

/-- Settles O50. -/
theorem packetCycleWaveform : Obligations.PacketCycleWaveform := by
  intro s hb hr
  obtain ⟨t, packetRun, packetBlock⟩ := run_packet hb hr
  obtain ⟨u, cycleRun, cycleBlock⟩ := run_cycle hb hr
  exact ⟨⟨t, packetRun, outputLevels_of_packet packetBlock⟩, ⟨u, cycleRun, outputLevels_of_cycle cycleBlock⟩⟩

/-! ### The output's trace -/

/-- What a run adds to the record is the level of `ir_out` in each of its ticks, in their order (R107). -/
theorem trace_of_run {n : Nat} {s t : State} (h : run n s = .next t) :
    ∃ added, outputLevels t = outputLevels s ++ added
      ∧ ∀ k, k < n → ∃ u, run (k + 1) s = .next u ∧ added[k]? = some u.irOut := by
  induction n generalizing s with
  | zero =>
    cases h
    exact ⟨[], (List.append_nil _).symm, fun _ hk => absurd hk (Nat.not_lt_zero _)⟩
  | succ n ih =>
    obtain ⟨u, first, rest⟩ := run_succ_eq_next h
    obtain ⟨added, recorded, ticks⟩ := ih rest
    refine ⟨u.irOut :: added, ?_, fun k hk => ?_⟩
    · rw [recorded, outputLevels_of_step first, List.append_assoc, List.singleton_append]
    · cases k with
      | zero => exact ⟨u, run_succ_next 0 s u first, rfl⟩
      | succ k =>
        obtain ⟨v, reached, level⟩ := ticks k (Nat.lt_of_succ_lt_succ hk)
        exact ⟨v, (run_succ_next (k + 1) s u first).trans reached, level⟩

/-- Low levels after a list are what reading past its end gives. -/
theorem eq_getD_of_getElem?_append_replicate {xs : List Bool} {m k : Nat} {b : Bool}
    (h : (xs ++ List.replicate m false)[k]? = some b) : b = xs.getD k false := by
  rw [List.getD_eq_getElem?_getD]
  by_cases within : k < xs.length
  · rw [List.getElem?_append_left within] at h
    rw [h]
    rfl
  · rw [List.getElem?_append_right (Nat.le_of_not_lt within)] at h
    have low := List.eq_of_mem_replicate (List.mem_of_getElem? h)
    rw [List.getElem?_eq_none (Nat.le_of_not_lt within), low]
    rfl

/-- Settles O51: the cycle's record is its trace. -/
theorem outputTraceIsPacket : Obligations.OutputTraceIsPacket := by
  intro s hb hr cmd k hk
  obtain ⟨t, reached, block⟩ := run_cycle hb hr
  obtain ⟨added, recorded, ticks⟩ := trace_of_run reached
  rw [outputLevels_of_cycle block, List.append_assoc] at recorded
  have traced := List.append_cancel_left recorded
  obtain ⟨u, run, level⟩ := ticks k hk
  rw [← traced] at level
  exact ⟨u, run, eq_getD_of_getElem?_append_replicate level⟩

end Sys2Proof.Machine
end

section
/-! The host interface (O23, O30, O33): the sentinel byte to the host, the grouping of host bytes into fours, and the message `UPD`. -/

namespace Sys2Proof.Machine

/-! ### The byte to the host -/

/-- The adapter's part of a phase's tick sends the sentinel exactly for the tick's own ready strobe: the tick opens with no byte
on the way to the host, and its phase sends none. -/
theorem adapterTick_phaseTick_hostTx (a : Arrival) (s : State) :
    (adapterTick a (phaseTick (openTick s))).hostTx =
      if (adapterTick a (phaseTick (openTick s))).ready then some 129#8 else none := by
  rw [adapterTick_hostTx, adapterTick_ready, phaseTick_hostTx, openTick_hostTx]
  rfl

/-- Settles O23: a reset tick raises no ready and sends no byte; in a tick of a phase the byte is the adapter's. -/
theorem sentinelByteRule : Obligations.SentinelByteRule := by
  intro s notReserved
  rcases step_cases s with ⟨-, reset⟩ | ⟨-, reserved, -⟩ | ⟨-, -, tick⟩
  · exact ⟨_, reset, rfl⟩
  · exact absurd reserved notReserved
  · exact ⟨_, tick, adapterTick_phaseTick_hostTx _ s⟩

/-! ### The grouping of host bytes -/

theorem takeByte_of_zero (x : Byte) {s : State} (h : s.held = .zero) : takeByte x s = { s with held := .one x } := by
  simp only [takeByte, h]

theorem takeByte_of_one (x : Byte) {a : Byte} {s : State} (h : s.held = .one a) :
    takeByte x s = { s with held := .two a x } := by
  simp only [takeByte, h]

theorem takeByte_of_two (x : Byte) {a b : Byte} {s : State} (h : s.held = .two a b) :
    takeByte x s = { s with held := .three a b x } := by
  simp only [takeByte, h]

/-- Settles O30: one rule for each count of held bytes; a reset tick loads the empty adapter whatever arrives. -/
theorem adapterGroupsFours : Obligations.AdapterGroupsFours :=
  ⟨fun _ x => ⟨takeByte_of_zero x, fun _ => takeByte_of_one x, fun _ _ => takeByte_of_two x,
      fun _ _ _ => takeByte_completes x⟩,
    fun s reset => ⟨_, step_reset s reset, rfl⟩⟩

/-! ### The update message -/

/-- Settles O33: the word delivered is the one that the layout of R48 gives the fields. -/
theorem updFillsMailbox : Obligations.UpdFillsMailbox := by
  intro y p c t r s
  obtain ⟨yaw, pitch, channel, throttle, trim, -⟩ := commandWordLayout.1 y p c t r
  exact ⟨fieldsWord y p c t r, rfl, yaw, pitch, channel, throttle, trim⟩

end Sys2Proof.Machine
end

section
/-! No tick of a run draws a free value (O12). The model draws one where a countdown at 0 counts down and where a statistic at 63
counts up; R33 has every counted phase's countdown running, and the statistics count at most 32 bits. -/

namespace Sys2Proof.Machine

/-! ### The draws of a tick -/

/-- From a running countdown a space's or wait's tick draws no free value where its phase's end draws none. -/
theorem countTick_draws {l : Bool} {f : State → State} {d : Nat} {s : State} (running : counting d s)
    (ends : (f (ticked l s)).draws = s.draws) : (countTick l f (beginTick s)).draws = s.draws := by
  obtain ⟨tick, -⟩ | tick := countTick_counting l f running
  · rw [tick, ticked_draws]
  · rw [tick, ends]

/-- The same of a burst's tick; its end is met with the burst registers at whatever the last half-cycle left. -/
theorem burstTick_draws {n : Nat} {f : State → State} {s : State} (running : burstRunning n s)
    (ends : ∀ t, (f t).draws = t.draws) : (burstTick n f (beginTick s)).draws = s.draws := by
  obtain ⟨l, c, k, r, tick, -⟩ | ⟨l, c, tick⟩ := burstTick_running n f running
  · rw [tick, ticked_draws]
  · rw [tick, ends, ticked_draws]

/-- The only phase's end that can draw is the tally's (R100); below 63 counted bits it draws nothing. -/
theorem bspaceEnd_draws {s : State} (room : s.ones.toNat + s.zeros.toNat < 63) : (bspaceEnd s).draws = s.draws := by
  rw [bspaceEnd_eq]
  exact tally_draws _ room

theorem phaseTick_boundary_draws {s : State} (h : atBoundary s = true) : (phaseTick s).draws = s.draws := by
  rw [phaseTick_boundary s h]

/-- R33's clause of the phase keeps the countdown off 0 and, before a tally, the statistics below 63. -/
theorem PhaseClause.phaseTick_draws {s : State} (h : PhaseClause s) : (phaseTick s).draws = s.draws := by
  cases h with
  | start phase => exact phaseTick_boundary_draws (by simp [atBoundary, phase])
  | hmark phase _ _ running =>
    rw [phaseTick_hmark phase]
    exact burstTick_draws running fun _ => rfl
  | hspace phase _ _ running =>
    rw [phaseTick_hspace phase]
    exact countTick_draws running rfl
  | bmark phase _ running =>
    rw [phaseTick_bmark phase]
    exact burstTick_draws running fun _ => rfl
  | bspace phase counts running =>
    obtain ⟨-, total⟩ := counts
    have index := s.bitidx.isLt
    have room : (ticked false s).ones.toNat + (ticked false s).zeros.toNat < 63 := by
      rw [ticked_ones, ticked_zeros]
      omega
    rw [phaseTick_bspace phase]
    exact countTick_draws running (bspaceEnd_draws room)
  | fmark phase _ running =>
    rw [phaseTick_fmark phase]
    exact burstTick_draws running paceEntry_draws
  | pace phase _ wait _ _ =>
    by_cases waited : s.rem = 0#17
    · exact phaseTick_boundary_draws (by simp [atBoundary, phase, waited])
    · have running : counting (76488 - 400 * popcount s.cmd) s := ⟨by bv_omega, wait⟩
      rw [phaseTick_pace phase waited]
      exact countTick_draws running rfl

/-! ### The statement -/

/-- Taking a tick's inputs changes nothing on the block's side. -/
theorem openTick_invariant {s : State} (h : Invariant s) : Invariant (openTick s) := by
  rwa [← invariant_blockOf, blockOf_openTick, invariant_blockOf]

/-- Settles O12, by what a step can do: a reset tick draws nothing; the invariant rules out the reserved code's fault; and of any
other tick only the phase's part could draw. -/
theorem invariantTickCompletesWithoutFreeValue : Obligations.InvariantTickCompletesWithoutFreeValue := by
  intro s h
  rcases step_cases s with ⟨-, reset⟩ | ⟨-, reserved, -⟩ | ⟨-, -, tick⟩
  · exact ⟨_, reset, rfl⟩
  · exact absurd reserved h.notReserved
  · refine ⟨_, tick, ?_⟩
    rw [adapterTick_draws, (openTick_invariant h).phaseClause.phaseTick_draws, openTick_draws]

end Sys2Proof.Machine
end
